-- ==== Sys2Proof/Word.lean ====
section
/-! DEFINITION. The value types of the block: octets and 16-bit coordinates. A time is a natural number of units of
`1/TICKS_PER_MS` ms, as R15 and R145 allow: DESIGN CHOICE, safe (log 2), since the step refuses a run in which a time would
not fit `TIME_W` bits. -/

namespace Sys2Proof

/-- A byte or octet: 8 bits, unsigned (R12). -/
abbrev Byte := BitVec 8

/-- An unsigned 16-bit coordinate of a mouse command (R11). -/
abbrev Half := BitVec 16

end Sys2Proof
end

