-- ==== Sys2Proof/Config.lean ====
section
/-! DEFINITION. What is fixed when the hardware is built (R9, R10, R34), and the free values. -/

namespace Sys2Proof

/-- `MAGIC`, the first byte of every frame (R9, R72). -/
abbrev Config.magic : Byte := 0xAA

/-- `TYPE_MOUSE` (R9). -/
abbrev Config.typeMouse : Byte := 0x01

/-- `TYPE_KEYBOARD` (R9). -/
abbrev Config.typeKeyboard : Byte := 0x02

/-- `BUF_CAP`: cells of the accumulation buffer, and the largest legal declared length (R9, C2). -/
abbrev Config.bufCap : Nat := 64

/-- `TIMEOUT_MS` (R9). -/
abbrev Config.timeoutMs : Nat := 100

/-- `BURST_COUNT`: emissions of one mouse command (R9). -/
abbrev Config.burstCount : Nat := 3

/-- `BURST_PAUSE_MS` (R9). -/
abbrev Config.burstPauseMs : Nat := 10

/-- `MOUSE_MIN_LEN` (R9). -/
abbrev Config.mouseMinLen : Nat := 5

/-- `KBD_MIN_LEN` (R9). -/
abbrev Config.kbdMinLen : Nat := 7

/-- `KEY_SLOTS`: keycodes in a keyboard command (R9). -/
abbrev Config.keySlots : Nat := 6

/-- `COORD_MAX`: top of the device's logical coordinate range (R9). A range of the values that claims can speak of; the block
never tests it (R158). -/
abbrev Config.coordMax : Nat := 32767

/-- `TIME_W`, the width of the time input and of the two deadline registers (R10, D3). -/
abbrev Config.timeW : Nat := 64

/-- `TICKS_PER_MS` (R10, D3). -/
abbrev Config.ticksPerMs : Nat := 1000

/-- `TIMEOUT_TICKS`, the watchdog window (R10). -/
abbrev Config.timeoutTicks : Nat := Config.timeoutMs * Config.ticksPerMs

/-- `PAUSE_TICKS`, one burst pause (R10). -/
abbrev Config.pauseTicks : Nat := Config.burstPauseMs * Config.ticksPerMs

/-- `WD_EXPIRE_AT_EQUAL` at its stated default (R10, R143). DESIGN CHOICE of the spec (D5), unsafe at exactly
`now = deadline` (log 7). -/
abbrev Config.wdExpireAtEqual : Bool := false

/-- What the environment presents in one clock cycle (R40, R187): the reset wire, how far time has advanced since the
previous cycle (so `now` never decreases: DESIGN CHOICE, safe, log 4), the bytes that reached the receive queue since then
(a lost byte is one that never arrives, log 5), and the sink's two answers. -/
structure Cycle where
  rstN      : Bool
  advance   : Nat
  arrivals  : List Byte
  ready     : Bool
  suspended : Bool
  deriving DecidableEq, Repr, Inhabited

/-- FREE VALUE: what the environment does in cycle number `n` where nothing is scripted (R185, R187). It has no body: a
statement about a step holds for every environment. DESIGN CHOICE, safe (log 3). -/
opaque Config.environment : Nat → Cycle

/-- FREE VALUE: the bits of output port number `port` in cycle `n` where R40 calls them unspecified (the data of a port
whose valid is low, payload bytes at or above `pkt_len`). DESIGN CHOICE, safe (log 21). -/
opaque Config.undriven : (port n : Nat) → BitVec 512

end Sys2Proof
end

