-- ==== Sys2Proof/Syntax.lean ====
section
/-! DEFINITION. The operations of the block: one constructor per row of spec/opcode_table.json (R84 to R87). -/

namespace Sys2Proof

/-- The five parse stages, in the order the source lists them (R21). -/
inductive Stage where
  | awaitingMagic
  | awaitingType
  | awaitingLength
  | awaitingPayload
  | awaitingChecksum
  deriving DecidableEq, Repr, Inhabited

/-- The three formats of the opcode table (R87). -/
inductive Format where
  | byte
  | time
  | frame
  deriving DecidableEq, Repr

/-- The operations. A BYTE operation carries the consumed byte where the table gives the row an operand; a FRAME command
carries its payload (the length is the number of payload bytes, C7) and, for the rows that stand for a range of types, the
free type bits `t` of the table's pattern. -/
inductive Instr where
  -- BYTE (R84)
  | syncHit
  | syncMiss (b : Byte)
  | typeByte (b : Byte)
  | lenZero
  | lenOk (b : Byte)
  | lenOver (b : Byte)
  | pay (b : Byte)
  | payLast (b : Byte)
  | csumOk (b : Byte)
  | csumBad (b : Byte)
  -- TIME (R85)
  | wdExpire
  | burstNext
  | burstEnd
  -- FRAME (R86)
  | mouse (payload : List Byte)
  | keyboard (payload : List Byte)
  | rsvd00 (payload : List Byte)
  | rsvd03 (payload : List Byte)
  | rsvd0407 (t : BitVec 2) (payload : List Byte)
  | rsvd080F (t : BitVec 3) (payload : List Byte)
  | rsvd101F (t : BitVec 4) (payload : List Byte)
  | rsvd203F (t : BitVec 5) (payload : List Byte)
  | rsvd407F (t : BitVec 6) (payload : List Byte)
  | rsvd80FF (t : BitVec 7) (payload : List Byte)
  deriving DecidableEq, Repr

/-- The table's format of a row (R87). -/
def Instr.format : Instr → Format
  | .syncHit => .byte
  | .syncMiss _ => .byte
  | .typeByte _ => .byte
  | .lenZero => .byte
  | .lenOk _ => .byte
  | .lenOver _ => .byte
  | .pay _ => .byte
  | .payLast _ => .byte
  | .csumOk _ => .byte
  | .csumBad _ => .byte
  | .wdExpire => .time
  | .burstNext => .time
  | .burstEnd => .time
  | .mouse _ => .frame
  | .keyboard _ => .frame
  | .rsvd00 _ => .frame
  | .rsvd03 _ => .frame
  | .rsvd0407 _ _ => .frame
  | .rsvd080F _ _ => .frame
  | .rsvd101F _ _ => .frame
  | .rsvd203F _ _ => .frame
  | .rsvd407F _ _ => .frame
  | .rsvd80FF _ _ => .frame

end Sys2Proof
end

