-- ==== Sys2Proof/WellFormed.lean ====
section
/-! DEFINITION. Which operations are well formed: the conditions on an operand that the table's masks cannot express
(R84), and the bound on a payload (R74). -/

namespace Sys2Proof

/-- A payload that some frame can carry: at most `BUF_CAP` bytes (R74, R88). -/
def payloadFits (p : List Byte) : Bool := decide (p.length ≤ Config.bufCap)

/-- The condition each row of the table puts on its own operands. -/
def Instr.wf : Instr → Bool
  | .syncHit => true
  | .syncMiss b => decide (b ≠ Config.magic)
  | .typeByte _ => true
  | .lenZero => true
  | .lenOk b => decide (1 ≤ b.toNat ∧ b.toNat ≤ Config.bufCap)
  | .lenOver b => decide (Config.bufCap < b.toNat)
  | .pay _ => true
  | .payLast _ => true
  | .csumOk _ => true
  | .csumBad _ => true
  | .wdExpire => true
  | .burstNext => true
  | .burstEnd => true
  | .mouse p => payloadFits p
  | .keyboard p => payloadFits p
  | .rsvd00 p => payloadFits p
  | .rsvd03 p => payloadFits p
  | .rsvd0407 _ p => payloadFits p
  | .rsvd080F _ p => payloadFits p
  | .rsvd101F _ p => payloadFits p
  | .rsvd203F _ p => payloadFits p
  | .rsvd407F _ p => payloadFits p
  | .rsvd80FF _ p => payloadFits p

end Sys2Proof
end

