-- ==== Sys2Proof/Decode.lean ====
section
/-! DEFINITION. The checksum (40_checksum.md), the selection of a byte operation (R84), the decoder of a whole frame
(R70 to R75), and after them the encoder (R88). -/

namespace Sys2Proof

/-- `checksum(t, n, p) = (t + n + sum(p)) mod 256`: exact on natural numbers, reduced once at the end (R100). For a payload
whose length is not `n` the source defines no value (R101); the model gives the same formula there: DESIGN CHOICE, safe, since
no operation reads such a value (log 25). -/
def checksum (t n : Byte) (p : List Byte) : Byte :=
  BitVec.ofNat 8 ((t.toNat + n.toNat + (p.map BitVec.toNat).sum) % 256)

/-- The length byte of a payload (R70): its length, for up to 255 bytes. R88 defines a frame for at most 64 payload bytes only,
and no byte says a length above 255; the model's total function gives the length modulo 256 there: DESIGN CHOICE, safe, since no
operation reads it (log 27). -/
def lengthByte (p : List Byte) : Byte := BitVec.ofNat 8 p.length

/-- `magic_hit` (R33). -/
def magicHit (b : Byte) : Bool := decide (b = Config.magic)

/-- `len_zero` (R33). -/
def lenZero (b : Byte) : Bool := decide (b = 0)

/-- `len_over` (R33): the byte exceeds the buffer capacity. -/
def lenOver (b : Byte) : Bool := decide (Config.bufCap < b.toNat)

/-- What the selection of a byte operation reads besides the byte (R84): the stage, whether more payload is due after this
byte (`fill + 1 < plen`), and the checksum expected of the frame in flight. -/
structure ByteCtx where
  stage    : Stage
  moreDue  : Bool
  expected : Byte
  deriving DecidableEq, Repr

/-- The byte operation that consuming `b` performs (R84, and part 2 of a `Byte` step in R183). Total: no byte is rejected. -/
def decodeByte (c : ByteCtx) (b : Byte) : Instr :=
  match c.stage with
  | .awaitingMagic => if magicHit b then .syncHit else .syncMiss b
  | .awaitingType => .typeByte b
  | .awaitingLength => if lenZero b then .lenZero else if lenOver b then .lenOver b else .lenOk b
  | .awaitingPayload => if c.moreDue then .pay b else .payLast b
  | .awaitingChecksum => if b = c.expected then .csumOk b else .csumBad b

/-- Whether a BYTE row of the table applies in a context (`fields.stage` and the part of `fields.cond` that is about the
state, R87); no other row does. The condition a row puts on its operand alone is `Instr.wf`. -/
def rowApplies (c : ByteCtx) : Instr → Bool
  | .syncHit => decide (c.stage = .awaitingMagic)
  | .syncMiss _ => decide (c.stage = .awaitingMagic)
  | .typeByte _ => decide (c.stage = .awaitingType)
  | .lenZero => decide (c.stage = .awaitingLength)
  | .lenOk _ => decide (c.stage = .awaitingLength)
  | .lenOver _ => decide (c.stage = .awaitingLength)
  | .pay _ => decide (c.stage = .awaitingPayload) && c.moreDue
  | .payLast _ => decide (c.stage = .awaitingPayload) && !c.moreDue
  | .csumOk b => decide (c.stage = .awaitingChecksum) && decide (b = c.expected)
  | .csumBad b => decide (c.stage = .awaitingChecksum) && decide (b ≠ c.expected)
  | .wdExpire => false
  | .burstNext => false
  | .burstEnd => false
  | .mouse _ => false
  | .keyboard _ => false
  | .rsvd00 _ => false
  | .rsvd03 _ => false
  | .rsvd0407 _ _ => false
  | .rsvd080F _ _ => false
  | .rsvd101F _ _ => false
  | .rsvd203F _ _ => false
  | .rsvd407F _ _ => false
  | .rsvd80FF _ _ => false

/-- A row's test of the type byte (R86): the low half of its 16-bit mask and match. -/
def typeMatches (mask pat t : Byte) : Bool := decide (t &&& mask = pat)

/-- The frame command of a packet with type `t` and payload `p` (R73, R86): the table's FRAME rows, which partition the
256 type values. -/
def decodeCommand (t : Byte) (p : List Byte) : Instr :=
  if typeMatches 0xFF 0x01 t then .mouse p
  else if typeMatches 0xFF 0x02 t then .keyboard p
  else if typeMatches 0xFF 0x00 t then .rsvd00 p
  else if typeMatches 0xFF 0x03 t then .rsvd03 p
  else if typeMatches 0xFC 0x04 t then .rsvd0407 (t.extractLsb' 0 2) p
  else if typeMatches 0xF8 0x08 t then .rsvd080F (t.extractLsb' 0 3) p
  else if typeMatches 0xF0 0x10 t then .rsvd101F (t.extractLsb' 0 4) p
  else if typeMatches 0xE0 0x20 t then .rsvd203F (t.extractLsb' 0 5) p
  else if typeMatches 0xC0 0x40 t then .rsvd407F (t.extractLsb' 0 6) p
  else .rsvd80FF (t.extractLsb' 0 7) p

/-- Why a list of bytes does not begin with a valid frame (R82, and a list that ends inside the frame). -/
inductive FrameError where
  | truncated
  | badMagic
  | oversize
  | badChecksum
  deriving DecidableEq, Repr

/-- A frame decoded from the front of a byte list with the bytes that follow it, or the reason there is none. -/
inductive FrameResult where
  | ok (i : Instr) (rest : List Byte)
  | rejected (e : FrameError)
  deriving DecidableEq, Repr

/-- The end of a frame: after the header, `n` payload bytes and the checksum byte (R70, R75). -/
def decodeBody (t n : Byte) (body : List Byte) : FrameResult :=
  match body.drop n.toNat with
  | [] => .rejected .truncated
  | c :: rest =>
    if c = checksum t n (body.take n.toNat) then .ok (decodeCommand t (body.take n.toNat)) rest
    else .rejected .badChecksum

/-- The frame at the front of a list of bytes (R70 to R75). Total; it rejects by name. -/
def decodeFrame : List Byte → FrameResult
  | [] => .rejected .truncated
  | m :: bytes =>
    if magicHit m then
      match bytes with
      | [] => .rejected .truncated
      | [_] => .rejected .truncated
      | t :: n :: body => if lenOver n then .rejected .oversize else decodeBody t n body
    else .rejected .badMagic

/-- `encode(t, p)`: the frame of a type and a payload of at most 64 bytes (R88). For a longer payload, of which R88 says that
it has no encoding that the parser accepts, the same expression: DESIGN CHOICE, safe (log 27). -/
def encodeFrame (t : Byte) (p : List Byte) : List Byte :=
  [Config.magic, t, lengthByte p] ++ p ++ [checksum t (lengthByte p) p]

/-- The bytes of an operation: the consumed byte of a BYTE row, none for a TIME row ("no byte is involved", R87), the
whole frame for a FRAME row (R88) with the type bits of its pattern (R86). -/
def encode : Instr → List Byte
  | .syncHit => [Config.magic]
  | .syncMiss b => [b]
  | .typeByte b => [b]
  | .lenZero => [0]
  | .lenOk b => [b]
  | .lenOver b => [b]
  | .pay b => [b]
  | .payLast b => [b]
  | .csumOk b => [b]
  | .csumBad b => [b]
  | .wdExpire => []
  | .burstNext => []
  | .burstEnd => []
  | .mouse p => encodeFrame 0x01 p
  | .keyboard p => encodeFrame 0x02 p
  | .rsvd00 p => encodeFrame 0x00 p
  | .rsvd03 p => encodeFrame 0x03 p
  | .rsvd0407 t p => encodeFrame (0b000001#6 ++ t) p
  | .rsvd080F t p => encodeFrame (0b00001#5 ++ t) p
  | .rsvd101F t p => encodeFrame (0b0001#4 ++ t) p
  | .rsvd203F t p => encodeFrame (0b001#3 ++ t) p
  | .rsvd407F t p => encodeFrame (0b01#2 ++ t) p
  | .rsvd80FF t p => encodeFrame (0b1#1 ++ t) p

/-- The stage in which a table word of one byte is read: the table fixes a byte in two rows only, `0xAA` in AwaitingMagic
and `0x00` in AwaitingLength; any other byte is read in AwaitingMagic. DESIGN CHOICE, safe (log 19). -/
def tableStage (b : Byte) : Stage := if lenZero b then .awaitingLength else .awaitingMagic

/-- The type byte of a table word `{magic, type}` (R86). -/
def tableType (w : Nat) : Byte := BitVec.ofNat 8 w

/-- The magic byte of a table word `{magic, type}` (R86). -/
def tableMagic (w : Nat) : Byte := BitVec.ofNat 8 (w / 256)

/-- The length byte above a table word `{magic, type}`: 0 where the table gives the row 16 bits. -/
def tableLength (w : Nat) : Byte := BitVec.ofNat 8 (w / 65536)

/-- The payload of a table word: bytes of zeros, as many as its length byte says. -/
def tablePayload (w : Nat) : List Byte := List.replicate (tableLength w).toNat 0

/-- The frame of a table word, with the checksum that makes it a valid frame (log 19). -/
def tableFrame (w : Nat) : List Byte :=
  [tableMagic w, tableType w, tableLength w] ++ tablePayload w ++
    [checksum (tableType w) (tableLength w) (tablePayload w)]

/-- The operation this decoder reads from a word of the table: a byte for `nbits = 8`, else a frame (log 19). -/
def decodeTableWord (nbits w : Nat) : Option Instr :=
  if nbits ≤ 8 then
    some (decodeByte ⟨tableStage (BitVec.ofNat 8 w), false, 0⟩ (BitVec.ofNat 8 w))
  else
    match decodeFrame (tableFrame w) with
    | .ok i _ => some i
    | .rejected _ => none

end Sys2Proof
end

