-- ==== Sys2Proof/Machine/State.lean ====
section
/-! DEFINITION. The state of the machine: the twelve registers of R20, the environment they meet (R35, R40), and the
trace (R185); the reasons a step can stop; the state after reset (R37). -/

namespace Sys2Proof.Machine

/-- The dispatcher's stage (R27). -/
inductive DStage where
  | idle
  | burst
  deriving DecidableEq, Repr, Inhabited

/-- The causes of a silent drop (R200). -/
inductive Cause where
  | badMagic
  | oversize
  | badChecksum
  | timeout
  | undersized
  | notReady
  | reserved
  deriving DecidableEq, Repr

/-- The source's classes of errors (R200). -/
inductive ErrorClass where
  | framing
  | integrity
  | timeout
  | semantic
  deriving DecidableEq, Repr

/-- The six keycode slots of a keyboard command (R78). -/
structure Keycodes where
  key1 : Byte
  key2 : Byte
  key3 : Byte
  key4 : Byte
  key5 : Byte
  key6 : Byte
  deriving DecidableEq, Repr

/-- The actions of a step (R181). `drop` is the model's trace mark: the hardware has no such output (R201, log 12). -/
inductive Action where
  | deliver (type : Byte) (length : Nat) (payload : List Byte)
  | wakeReq
  | mouseReport (buttons : Byte) (x y : Half)
  | kbdReport (modifiers : Byte) (keycodes : Keycodes)
  | drop (cause : Cause)
  deriving DecidableEq, Repr

/-- A ValidatedPacket (R18, C7); its length is the number of its payload bytes. -/
structure Packet where
  type    : Byte
  payload : List Byte
  deriving DecidableEq, Repr

/-- The accumulation buffer as (index, byte) cells: indices strictly rising and below `BUF_CAP`, no cell equal to what an
unlisted index reads as (`Memory.wf`). -/
abbrev Memory := List Host.Cell

/-- Everything the machine holds. -/
structure State where
  /-- the current parse stage (R21) -/
  stage        : Stage
  /-- the declared packet type (R22) -/
  ptype        : Byte
  /-- the declared payload length (R23) -/
  plen         : Byte
  /-- the fill count, 0 to 64 (R24) -/
  fill         : BitVec 7
  /-- the accumulation buffer (R25) -/
  buf          : Memory
  /-- the watchdog's deadline (R26) -/
  deadline     : Nat
  /-- whether a mouse burst is in progress (R27) -/
  dstage       : DStage
  /-- emissions of the current burst already made (R28) -/
  dSent        : BitVec 2
  /-- end of the current burst pause (R29) -/
  dDeadline    : Nat
  /-- buttons of the mouse command being repeated (R30) -/
  dButtons     : Byte
  /-- x of the mouse command being repeated (R30) -/
  dX           : Half
  /-- y of the mouse command being repeated (R30) -/
  dY           : Half
  /-- input port `now` in the current cycle (R40); every step writes it before it reads it -/
  now          : Nat
  /-- input port `dev_ready` in the current cycle (R40, R43) -/
  devReady     : Bool
  /-- input port `dev_suspended` in the current cycle (R40, R43) -/
  devSuspended : Bool
  /-- the receive queue in front of the block, oldest byte first (R35); its head is offered on `rx_data` (R41) -/
  rx           : List Byte
  /-- the model's own: what the environment does in the coming cycles (log 3) -/
  script       : List Cycle
  /-- the model's own: cycles taken so far, the argument of the free environment (log 3) -/
  cycles       : Nat
  /-- the model's own: the trace of the run (R185); no operation reads it -/
  trace        : List (Nat × Action)
  deriving DecidableEq, Repr

/-- Why the machine stops with a fault. The block itself never faults (R203). -/
inductive Fault where
  /-- A payload operation, or the selection or execution of `CSUM_OK`, met an index outside the 64 cells of the buffer.
  Raised by `execPay`, `execPayLast`, `execCsumOk` and the step's selection of a byte operation; in no reachable state
  (R36 items 2, 4). DESIGN CHOICE, safe (log 16). -/
  | bufferIndex
  deriving DecidableEq, Repr

/-- Why the machine refuses. -/
inductive Refusal where
  /-- An operation that has no meaning yet: raised by the arms of `exec` alone; safe. No arm raises it. -/
  | notModelled (mnemonic : String)
  /-- A cycle whose `now` lies so late that a deadline would not fit `TIME_W` bits: raised by the step alone, since such a
  run is outside the spec and must be given no meaning (R145, I7); safe (log 2). -/
  | timeWraps
  deriving DecidableEq, Repr

/-- The outcome of a step or of an operation. -/
abbrev Result := Host.Outcome State Fault Refusal

/-- The state after reset (R37). Where R37 says "unspecified" the register holds 0: DESIGN CHOICE, unsafe (log 1); by R38
no action of any run depends on it. The environment's fields begin empty (log 3). -/
def State.reset : State where
  stage        := .awaitingMagic
  ptype        := 0
  plen         := 0
  fill         := 0
  buf          := []
  deadline     := 0
  dstage       := .idle
  dSent        := 0
  dDeadline    := 0
  dButtons     := 0
  dX           := 0
  dY           := 0
  now          := 0
  devReady     := false
  devSuspended := false
  rx           := []
  script       := []
  cycles       := 0
  trace        := []

end Sys2Proof.Machine
end

