-- ==== Sys2Proof/Machine/Ops.lean ====
section
/-! DEFINITION. The named operations over the buffer, the registers and the trace that the meanings share. -/

namespace Sys2Proof.Machine

/-! ### The accumulation buffer (R50, R55, R56) -/

/-- What an index nothing has written reads as. DESIGN CHOICE, unsafe (log 23): the spec leaves the reset content of
`buf` open (R37). -/
def Memory.unwritten : Byte := 0

/-- The byte at an index. -/
def Memory.read : Memory → Nat → Byte
  | [], _ => Memory.unwritten
  | (k, w) :: m, a => if k = a then w else Memory.read m a

/-- A cell of the canonical form, or none where the value is what an unlisted index reads as. -/
def Memory.cell (a : Nat) (v : Byte) (m : Memory) : Memory :=
  if v = Memory.unwritten then m else (a, v) :: m

/-- `buf[a] <- v`, one cell and no other (R55); keeps the canonical form. -/
def Memory.write : Memory → Nat → Byte → Memory
  | [], a, v => Memory.cell a v []
  | (k, w) :: m, a, v =>
    if k < a then (k, w) :: Memory.write m a v
    else if k = a then Memory.cell a v m
    else Memory.cell a v ((k, w) :: m)

/-- The canonical form from a lower bound `lo` on. -/
def Memory.wfFrom : Nat → Memory → Bool
  | _, [] => true
  | lo, (k, w) :: m =>
    decide (lo ≤ k) && decide (k < Config.bufCap) && decide (w ≠ Memory.unwritten) && Memory.wfFrom (k + 1) m

/-- The canonical form: indices strictly rising and below `BUF_CAP`, no cell equal to what an unlisted index reads as. -/
def Memory.wf (m : Memory) : Bool := Memory.wfFrom 0 m

/-- The bytes `buf[0..n)`. -/
def Memory.readList (m : Memory) (n : Nat) : List Byte := (List.range n).map m.read

/-- `MemRead(0, n)` (R14, R56); none where it would reach outside the 64 cells (log 16). -/
def bufRead (n : Nat) (s : State) : Option (List Byte) :=
  if n ≤ Config.bufCap then some (s.buf.readList n) else none

/-- `MemWrite(fill, 1, b)` and then `fill <- fill + 1` (R55, R118); none where `fill` is no index of the buffer (log 16). -/
def appendByte (b : Byte) (s : State) : Option State :=
  if s.fill.toNat < Config.bufCap then
    some { s with buf := s.buf.write s.fill.toNat b, fill := s.fill + 1 }
  else none

/-! ### The trace (R14, R181, R185) -/

/-- `emit A`: append the action, stamped with `now`, to the trace. -/
def emit (a : Action) (s : State) : State := { s with trace := s.trace ++ [(s.now, a)] }

/-- `raise Drop(cause)`: a mark in the trace, nothing else (R14, R201). -/
def dropMark (c : Cause) (s : State) : State := emit (.drop c) s

/-- The code of a cause (R200; the spec's own numbers for the marks of the trace, D16, log 12). No output carries it (R201). -/
def causeCode : Cause → Nat
  | .badMagic => 1
  | .oversize => 2
  | .badChecksum => 3
  | .timeout => 4
  | .undersized => 5
  | .notReady => 6
  | .reserved => 7

/-- The source's class of a cause; a reserved type is no error in the source (R200). -/
def causeClass : Cause → Option ErrorClass
  | .badMagic => some .framing
  | .oversize => some .framing
  | .badChecksum => some .integrity
  | .timeout => some .timeout
  | .undersized => some .semantic
  | .notReady => some .semantic
  | .reserved => none

/-! ### The parser's shared operations -/

/-- Arm the watchdog: `deadline <- now + TIMEOUT_TICKS` (R144). -/
def armDeadline (s : State) : State := { s with deadline := s.now + Config.timeoutTicks }

/-- `FrameReset()` (R111): `buf` and `deadline` are left as they are (D9, log 11). -/
def frameReset (s : State) : State :=
  { s with stage := .awaitingMagic, ptype := 0, plen := 0, fill := 0 }

/-- What every parser-level drop but `BadMagic` does (R206): mark the cause, reset the frame. This is the block's
"exception entry"; nothing is saved, and there is nothing to return from (R207). -/
def parserDrop (c : Cause) (s : State) : State := frameReset (dropMark c s)

/-! ### The dispatcher's shared operations -/

/-- The wakeup prologue `WAKE` (R153). -/
def wake (s : State) : State := if s.devSuspended then emit .wakeReq s else s

/-- Latch a mouse command and begin its burst, the first emission being made (the register writes of R156). -/
def startBurst (buttons : Byte) (x y : Half) (s : State) : State :=
  { s with
    dButtons := buttons, dX := x, dY := y, dSent := 1, dDeadline := s.now + Config.pauseTicks, dstage := .burst }

/-- Count one more emission and begin its pause (the register writes of R162). -/
def continueBurst (s : State) : State :=
  { s with dSent := s.dSent + 1, dDeadline := s.now + Config.pauseTicks }

/-- End the burst and its stall (R163). -/
def endBurst (s : State) : State := { s with dstage := .idle, dSent := 0 }

/-! ### The byte input -/

/-- The offered byte is consumed: it leaves the queue and cannot be consumed again (R41, R57, R215). -/
def consume (s : State) : State := { s with rx := s.rx.tail }

/-! ### Outcomes -/

/-- Go on from a next state; a fault or a refusal stays as it is. -/
def andThen (r : Result) (k : State → Result) : Result :=
  match r with
  | .next s => k s
  | .fault f => .fault f
  | .refused x => .refused x

/-- A next state, or the fault of an access outside the buffer (log 16). -/
def orBufferFault : Option State → Result
  | some s => .next s
  | none => .fault .bufferIndex

end Sys2Proof.Machine
end

