-- ==== Sys2Proof/Machine/Flags.lean ====
section
/-! DEFINITION. The block has no status flags; these are the combinational conditions on the state that steer an
operation (R33). Those on the byte alone (`magicHit`, `lenZero`, `lenOver`) stand in Decode.lean. -/

namespace Sys2Proof.Machine

/-- `now` has passed `deadline`: strictly, unless `WD_EXPIRE_AT_EQUAL` (R141, R143). -/
def deadlinePassed (now deadline : Nat) : Bool :=
  if Config.wdExpireAtEqual then decide (deadline ≤ now) else decide (deadline < now)

/-- `wd_expired` (R33): the enabling condition of `WD_EXPIRE` (R85, R141). -/
def wdExpired (s : State) : Bool := decide (s.stage ≠ .awaitingMagic) && deadlinePassed s.now s.deadline

/-- `pause_over` (R33): a burst pause is complete at equality already (D6, log 8). -/
def pauseOver (s : State) : Bool := decide (s.dstage = .burst) && decide (s.dDeadline ≤ s.now)

/-- `fill + 1 < plen` (R118, R183). -/
def moreDue (s : State) : Bool := decide (s.fill.toNat + 1 < s.plen.toNat)

/-- How many buffer bytes the selection of a byte operation reads: `plen` in AwaitingChecksum, none elsewhere (R56). -/
def checkedLength (s : State) : Nat := if s.stage = .awaitingChecksum then s.plen.toNat else 0

/-- What the selection of a byte operation sees of the state (R84); none where it would read outside the buffer (log 16).
Outside AwaitingChecksum no byte is read and the expected checksum is looked at by nothing (log 25). -/
def byteCtx (s : State) : Option ByteCtx :=
  (bufRead (checkedLength s) s).map fun p => ⟨s.stage, moreDue s, checksum s.ptype s.plen p⟩

end Sys2Proof.Machine
end

