-- ==== Sys2Proof/Machine/Cycle.lean ====
section
/-! DEFINITION. One clock cycle (R44, R183): the environment's inputs, reset, the watchdog, then the burst sequencer or
the byte operation. `ex` is the meaning of an operation; Step.lean gives it `exec`. -/

namespace Sys2Proof.Machine

/-- What the environment presents in the coming cycle: what is scripted, else what the free environment does (log 3). -/
def nextCycle (s : State) : Cycle :=
  match s.script with
  | c :: _ => c
  | [] => Config.environment s.cycles

/-- The input ports take the values of cycle `c`: time has advanced, the arrivals wait behind the bytes already held (R41,
R60), the sink's answers are on their ports (R43). -/
def openCycle (c : Cycle) (s : State) : State :=
  { s with
    now := s.now + c.advance, devReady := c.ready, devSuspended := c.suspended,
    rx := s.rx ++ c.arrivals, script := s.script.tail, cycles := s.cycles + 1 }

/-- The no-wrap assumption `now + TIMEOUT_TICKS < 2^TIME_W` and `now + PAUSE_TICKS < 2^TIME_W` (R145), with the constants
on one side of each comparison. -/
def timeFits (now : Nat) : Bool :=
  decide (now < 2 ^ Config.timeW - Config.timeoutTicks) && decide (now < 2 ^ Config.timeW - Config.pauseTicks)

/-- What a cycle with `rst_n = 0` does to the registers (R241). -/
def resetRegisters (s : State) : State :=
  { s with stage := .awaitingMagic, ptype := 0, plen := 0, fill := 0, dstage := .idle, dSent := 0 }

/-- Part 1 of a step: the watchdog (R142, R183; D4, log 6). -/
def watchdogPhase (ex : Instr → State → Result) (s : State) : Result :=
  if wdExpired s then ex .wdExpire s else .next s

/-- The burst sequencer of a `Tick` (R183): at most one burst operation (D27). -/
def burstPhase (ex : Instr → State → Result) (s : State) : Result :=
  if pauseOver s then
    if s.dSent.toNat < Config.burstCount then ex .burstNext s else ex .burstEnd s
  else .next s

/-- The byte operation of a `Byte` step (R183): `b` leaves the queue and is interpreted in the stage as it now is. -/
def bytePhase (ex : Instr → State → Result) (b : Byte) (s : State) : Result :=
  match byteCtx s with
  | none => .fault .bufferIndex
  | some c => ex (decodeByte c b) (consume s)

/-- The event of one step (R181); its `now` and `dev` are on the input ports of the state it meets. -/
inductive Event where
  | tick
  | byte (b : Byte)
  deriving DecidableEq, Repr

/-- A byte is consumed exactly when one is offered and no burst is in progress; otherwise the cycle is a `Tick` and an
offered byte stays offered (R41, R182). -/
def eventOf (s : State) : Event :=
  match s.dstage, s.rx with
  | .idle, b :: _ => .byte b
  | .idle, [] => .tick
  | .burst, _ => .tick

/-- `Step(S, event)` of R183: the watchdog, then the burst sequencer or the byte operation. -/
def stepEvent (ex : Instr → State → Result) (e : Event) (s : State) : Result :=
  match e with
  | .tick => andThen (watchdogPhase ex s) (burstPhase ex)
  | .byte b => andThen (watchdogPhase ex s) (bytePhase ex b)

/-- One cycle: a run outside the spec is refused (R145), a reset cycle performs no step (R241), else the step of R183. -/
def runCycle (ex : Instr → State → Result) (s : State) : Result :=
  let c := nextCycle s
  let t := openCycle c s
  if timeFits t.now then
    if c.rstN then stepEvent ex (eventOf t) t else .next (resetRegisters t)
  else .refused .timeWraps

/-! ### Placing one operation (log 19) -/

/-- A cycle that changes no input: no time passes, nothing arrives, the sink's answers stay. -/
def holdCycle (s : State) : Cycle := ⟨true, 0, [], s.devReady, s.devSuspended⟩

/-- Offer `bytes` in the next cycle to an idle dispatcher and a parser in stage `st` whose window is open. -/
def offer (st : Stage) (bytes : List Byte) (s : State) : State :=
  { s with
    stage := st, deadline := s.now, dstage := .idle, dSent := 0, rx := bytes, script := [holdCycle s] }

/-- The parser has taken all of a table word's frame but its checksum byte. -/
def loadFrame (w : Nat) (s : State) : State :=
  { s with
    ptype := tableType w, plen := tableLength w, fill := (tableLength w).truncate 7,
    buf := (List.range (tableLength w).toNat).foldl (fun m i => m.write i 0) s.buf }

/-- `s` with the operation of a table word placed so that the next step runs it: a byte is offered in the stage it is read
in; a frame is taken up to its checksum byte, which is offered. A word that is no frame is offered byte by byte. -/
def placeTableWord (nbits w : Nat) (s : State) : State :=
  if nbits ≤ 8 then offer (tableStage (BitVec.ofNat 8 w)) [BitVec.ofNat 8 w] s
  else if magicHit (tableMagic w) && !lenOver (tableLength w) then
    offer .awaitingChecksum [checksum (tableType w) (tableLength w) (tablePayload w)] (loadFrame w s)
  else offer .awaitingMagic (tableFrame w) s

end Sys2Proof.Machine
end

