-- ==== Sys2Proof/Machine/Operands.lean ====
section
/-! DEFINITION. Operand assembly: the fields of a mouse and of a keyboard payload (R76 to R79, R155). -/

namespace Sys2Proof.Machine

/-- Payload byte `i`. The commands read it only where the payload is long enough to have one (R156, R159). -/
def payloadByte (p : List Byte) (i : Nat) : Byte := p.getD i 0

/-- A little-endian 16-bit field: `lo` arrives first (R51). -/
def littleEndian (lo hi : Byte) : Half := hi ++ lo

/-- `x = {payload[1], payload[0]}` (R77, R155). -/
def mouseX (p : List Byte) : Half := littleEndian (payloadByte p 0) (payloadByte p 1)

/-- `y = {payload[3], payload[2]}` (R77, R155). -/
def mouseY (p : List Byte) : Half := littleEndian (payloadByte p 2) (payloadByte p 3)

/-- `buttons = payload[4]` (R77, R155). -/
def mouseButtons (p : List Byte) : Byte := payloadByte p 4

/-- `modifiers = payload[0]` (R79). -/
def kbdModifiers (p : List Byte) : Byte := payloadByte p 0

/-- `keycodes[i] = payload[1 + i]` (R79). -/
def kbdKeycodes (p : List Byte) : Keycodes where
  key1 := payloadByte p 1
  key2 := payloadByte p 2
  key3 := payloadByte p 3
  key4 := payloadByte p 4
  key5 := payloadByte p 5
  key6 := payloadByte p 6

/-- The keycodes in the order of their slots, `KEY_SLOTS` of them (R9, R78). -/
def keycodeSlots (k : Keycodes) : Vector Byte Config.keySlots := #v[k.key1, k.key2, k.key3, k.key4, k.key5, k.key6]

end Sys2Proof.Machine
end

