-- ==== Sys2Proof/Machine/Dispatcher.lean ====
section
/-! DEFINITION. The report dispatcher (43_dispatcher.md): the frame commands, `Dispatch`, and the time operations of a
mouse burst. -/

namespace Sys2Proof.Machine

/-- `MOUSE` (R156): the length test, then the readiness test, then emission 1 of 3 and the burst registers. -/
def execMouse (p : List Byte) (s : State) : Result :=
  if p.length < Config.mouseMinLen then .next (dropMark .undersized s)
  else if !s.devReady then .next (dropMark .notReady s)
  else
    .next (startBurst (mouseButtons p) (mouseX p) (mouseY p)
      (emit (.mouseReport (mouseButtons p) (mouseX p) (mouseY p)) s))

/-- `KEYBOARD` (R159): the length test, then the readiness test, then one report; no register is written. -/
def execKeyboard (p : List Byte) (s : State) : Result :=
  if p.length < Config.kbdMinLen then .next (dropMark .undersized s)
  else if !s.devReady then .next (dropMark .notReady s)
  else .next (emit (.kbdReport (kbdModifiers p) (kbdKeycodes p)) s)

/-- `RSVD` (R161), the one command behind the eight `RSVD_*` rows (R86): the packet is silently ignored. -/
def rsvd (s : State) : Result := .next (dropMark .reserved s)

/-- `RSVD_00` (R161). -/
def execRsvd00 (_p : List Byte) (s : State) : Result := rsvd s

/-- `RSVD_03` (R161). -/
def execRsvd03 (_p : List Byte) (s : State) : Result := rsvd s

/-- `RSVD_04_07` (R161). -/
def execRsvd0407 (_t : BitVec 2) (_p : List Byte) (s : State) : Result := rsvd s

/-- `RSVD_08_0F` (R161). -/
def execRsvd080F (_t : BitVec 3) (_p : List Byte) (s : State) : Result := rsvd s

/-- `RSVD_10_1F` (R161). -/
def execRsvd101F (_t : BitVec 4) (_p : List Byte) (s : State) : Result := rsvd s

/-- `RSVD_20_3F` (R161). -/
def execRsvd203F (_t : BitVec 5) (_p : List Byte) (s : State) : Result := rsvd s

/-- `RSVD_40_7F` (R161). -/
def execRsvd407F (_t : BitVec 6) (_p : List Byte) (s : State) : Result := rsvd s

/-- `RSVD_80_FF` (R161). -/
def execRsvd80FF (_t : BitVec 7) (_p : List Byte) (s : State) : Result := rsvd s

/-- The branch on the packet's type (R151, R154), with `RSVD` spread over the ranges of its table rows (R86). -/
def runCommand (t : Byte) (p : List Byte) (s : State) : Result :=
  if t = Config.typeMouse then execMouse p s
  else if t = Config.typeKeyboard then execKeyboard p s
  else if t = 0x00 then execRsvd00 p s
  else if t = 0x03 then execRsvd03 p s
  else if t.toNat < 0x08 then execRsvd0407 (t.extractLsb' 0 2) p s
  else if t.toNat < 0x10 then execRsvd080F (t.extractLsb' 0 3) p s
  else if t.toNat < 0x20 then execRsvd101F (t.extractLsb' 0 4) p s
  else if t.toNat < 0x40 then execRsvd203F (t.extractLsb' 0 5) p s
  else if t.toNat < 0x80 then execRsvd407F (t.extractLsb' 0 6) p s
  else execRsvd80FF (t.extractLsb' 0 7) p s

/-- `Dispatch(P, now, dev)` (R151): the hand-over, the wakeup prologue, the command; in this order (D25, log 12). -/
def dispatch (packet : Packet) (s : State) : Result :=
  runCommand packet.type packet.payload
    (wake (emit (.deliver packet.type packet.payload.length packet.payload) s))

/-- `BURST_NEXT` (R162): emission `d_sent + 1` of 3 with the latched command; the sink is not queried again. -/
def execBurstNext (s : State) : Result :=
  .next (continueBurst (emit (.mouseReport s.dButtons s.dX s.dY) s))

/-- `BURST_END` (R163). -/
def execBurstEnd (s : State) : Result := .next (endBurst s)

end Sys2Proof.Machine
end

