-- ==== Sys2Proof/Machine/Parser.lean ====
section
/-! DEFINITION. The frame parser's byte operations (41_frame_parser.md). Each is the effect of its rule's pseudocode; when
it is selected is `decodeByte`'s affair (R84; log 18). -/

namespace Sys2Proof.Machine

/-- `SYNC_HIT` (R112). -/
def execSyncHit (s : State) : Result := .next (armDeadline { s with stage := .awaitingType })

/-- `SYNC_MISS` (R113): a trace mark, no register is written (C6). -/
def execSyncMiss (_b : Byte) (s : State) : Result := .next (dropMark .badMagic s)

/-- `TYPE` (R114). -/
def execTypeByte (b : Byte) (s : State) : Result :=
  .next (armDeadline { s with ptype := b, stage := .awaitingLength })

/-- `LEN_ZERO` (R115): straight to AwaitingChecksum (C1, D10, log 10). -/
def execLenZero (s : State) : Result :=
  .next (armDeadline { s with plen := 0, fill := 0, stage := .awaitingChecksum })

/-- `LEN_OK` (R116): the last arming of the deadline for the frame. -/
def execLenOk (b : Byte) (s : State) : Result :=
  .next (armDeadline { s with plen := b, fill := 0, stage := .awaitingPayload })

/-- `LEN_OVER` (R117). -/
def execLenOver (_b : Byte) (s : State) : Result := .next (parserDrop .oversize s)

/-- `PAY` (R118): no re-arming of the deadline (R144). -/
def execPay (b : Byte) (s : State) : Result := orBufferFault (appendByte b s)

/-- `PAY_LAST` (R119). -/
def execPayLast (b : Byte) (s : State) : Result :=
  orBufferFault ((appendByte b s).map fun t => { t with stage := .awaitingChecksum })

/-- `CSUM_OK` (R120): the packet is built from the registers before `FrameReset`, then dispatched in the same step. -/
def execCsumOk (_b : Byte) (s : State) : Result :=
  match bufRead s.plen.toNat s with
  | none => .fault .bufferIndex
  | some p => dispatch ⟨s.ptype, p⟩ (frameReset s)

/-- `CSUM_BAD` (R121). -/
def execCsumBad (_b : Byte) (s : State) : Result := .next (parserDrop .badChecksum s)

end Sys2Proof.Machine
end

