-- ==== Sys2Proof/Machine/Watchdog.lean ====
section
/-! DEFINITION. The timeout watchdog's one operation (42_watchdog.md). -/

namespace Sys2Proof.Machine

/-- `WD_EXPIRE` (R141). -/
def execWdExpire (s : State) : Result := .next (parserDrop .timeout s)

end Sys2Proof.Machine
end

