-- ==== Sys2Proof/Machine/Dispatch.lean ====
section
/-! DEFINITION. The arms of `exec`: one direct call of a meaning for every row of the opcode table. -/

namespace Sys2Proof.Machine

def exec (i : Instr) (s : State) : Host.Outcome State Fault Refusal :=
  match i with
  | .syncHit => Sys2Proof.Machine.execSyncHit s
  | .syncMiss b => Sys2Proof.Machine.execSyncMiss b s
  | .typeByte b => Sys2Proof.Machine.execTypeByte b s
  | .lenZero => Sys2Proof.Machine.execLenZero s
  | .lenOk b => Sys2Proof.Machine.execLenOk b s
  | .lenOver b => Sys2Proof.Machine.execLenOver b s
  | .pay b => Sys2Proof.Machine.execPay b s
  | .payLast b => Sys2Proof.Machine.execPayLast b s
  | .csumOk b => Sys2Proof.Machine.execCsumOk b s
  | .csumBad b => Sys2Proof.Machine.execCsumBad b s
  | .wdExpire => Sys2Proof.Machine.execWdExpire s
  | .burstNext => Sys2Proof.Machine.execBurstNext s
  | .burstEnd => Sys2Proof.Machine.execBurstEnd s
  | .mouse p => Sys2Proof.Machine.execMouse p s
  | .keyboard p => Sys2Proof.Machine.execKeyboard p s
  | .rsvd00 p => Sys2Proof.Machine.execRsvd00 p s
  | .rsvd03 p => Sys2Proof.Machine.execRsvd03 p s
  | .rsvd0407 t p => Sys2Proof.Machine.execRsvd0407 t p s
  | .rsvd080F t p => Sys2Proof.Machine.execRsvd080F t p s
  | .rsvd101F t p => Sys2Proof.Machine.execRsvd101F t p s
  | .rsvd203F t p => Sys2Proof.Machine.execRsvd203F t p s
  | .rsvd407F t p => Sys2Proof.Machine.execRsvd407F t p s
  | .rsvd80FF t p => Sys2Proof.Machine.execRsvd80FF t p s

end Sys2Proof.Machine
end

