-- ==== Sys2Proof/Machine/Step.lean ====
section
/-! DEFINITION. The step, and the placing of one operation. -/

namespace Sys2Proof.Machine

/-- One clock cycle (R44, R183). -/
def step (s : State) : Host.Outcome State Fault Refusal := runCycle exec s

/-- `s` with the operation of a table word placed so that the very next step runs it (log 19). -/
def State.withFetchWord (s : State) (nbits w : Nat) : State := placeTableWord nbits w s

end Sys2Proof.Machine
end

