-- ==== Sys2Proof/Machine/Ports.lean ====
section
/-! DEFINITION. The signal-level binding (R40 to R43): the output ports of a cycle, computed from the actions its step
appends to the trace, and the binary codes of the stages (R21, R39). The step does not read them (R44). -/

namespace Sys2Proof.Machine

/-- The binary code of a stage (R21). -/
def stageCode : Stage → BitVec 3
  | .awaitingMagic => 0
  | .awaitingType => 1
  | .awaitingLength => 2
  | .awaitingPayload => 3
  | .awaitingChecksum => 4

/-- The stage a code is treated as: 5, 6 and 7 as AwaitingMagic (R39, log 14). -/
def stageOfCode (c : BitVec 3) : Stage :=
  if c = 1 then .awaitingType
  else if c = 2 then .awaitingLength
  else if c = 3 then .awaitingPayload
  else if c = 4 then .awaitingChecksum
  else .awaitingMagic

/-- The binary code of a dispatcher stage (R27). -/
def dstageCode : DStage → BitVec 1
  | .idle => 0
  | .burst => 1

/-- The output ports of R40. -/
structure OutPorts where
  rxReady      : Bool
  wakeReq      : Bool
  mouseValid   : Bool
  mouseButtons : Byte
  mouseX       : Half
  mouseY       : Half
  kbdValid     : Bool
  kbdModifiers : Byte
  kbdKeycodes  : BitVec 48
  pktValid     : Bool
  pktType      : Byte
  pktLen       : BitVec 7
  pktPayload   : BitVec 512
  deriving DecidableEq, Repr

/-- `kbd_keycodes`: slot `i` is bits `[8*i-1 : 8*i-8]` (R40). -/
def packKeycodes (k : Keycodes) : BitVec 48 := k.key6 ++ k.key5 ++ k.key4 ++ k.key3 ++ k.key2 ++ k.key1

/-- `pkt_payload`: payload byte `i` is bits `[8*i+7 : 8*i]`; the bits above the payload are those of `above` (R40, I8). -/
def packPayload (above : BitVec 512) : List Byte → BitVec 512
  | [] => above
  | b :: p => (packPayload (above >>> 8) p) <<< 8 ||| b.setWidth 512

/-- All pulses low; the data of each port is a free value of its own (R40, log 21). -/
def quietPorts (rxReady : Bool) (n : Nat) : OutPorts where
  rxReady      := rxReady
  wakeReq      := false
  mouseValid   := false
  mouseButtons := (Config.undriven 0 n).setWidth 8
  mouseX       := (Config.undriven 1 n).setWidth 16
  mouseY       := (Config.undriven 2 n).setWidth 16
  kbdValid     := false
  kbdModifiers := (Config.undriven 3 n).setWidth 8
  kbdKeycodes  := (Config.undriven 4 n).setWidth 48
  pktValid     := false
  pktType      := (Config.undriven 5 n).setWidth 8
  pktLen       := (Config.undriven 6 n).setWidth 7
  pktPayload   := Config.undriven 7 n

/-- The pulse of one action (R42); a `Drop` mark has none (R201). -/
def pulse (p : OutPorts) : Action → OutPorts
  | .deliver t l bytes =>
    { p with
      pktValid := true, pktType := t, pktLen := BitVec.ofNat 7 l, pktPayload := packPayload p.pktPayload bytes }
  | .wakeReq => { p with wakeReq := true }
  | .mouseReport b x y => { p with mouseValid := true, mouseButtons := b, mouseX := x, mouseY := y }
  | .kbdReport m k => { p with kbdValid := true, kbdModifiers := m, kbdKeycodes := packKeycodes k }
  | .drop _ => p

/-- The actions a step from `s` to `t` performed: what it appended to the trace (R181, R185). -/
def stepActions (s t : State) : List Action := (t.trace.drop s.trace.length).map Prod.snd

/-- `rx_ready` of the coming cycle: the block takes a byte unless a burst is in progress or reset is asserted (R40, R241). -/
def rxReady (s : State) : Bool := (nextCycle s).rstN && decide (s.dstage = .idle)

/-- The output ports during the cycle whose step leads from `s` to `t` (R42). -/
def outPorts (s t : State) : OutPorts := (stepActions s t).foldl pulse (quietPorts (rxReady s) s.cycles)

end Sys2Proof.Machine
end

