-- ==== Sys2Proof/Safety.lean ====
section
/-! DEFINITION. What claims are stated in: the invariants of the reachable states (R36), settled runs (R186), the
equivalence of states that differ in dead registers only (R38), the projections of a trace (R185), and frames (R45). -/

namespace Sys2Proof.Safety

open Sys2Proof.Machine

/-- The invariants of R36 (item 1 is the type of `stage`; item 5 without its second half), with the canonical form of the
buffer and the width of the two deadlines (R26, R29, R145). -/
structure Inv (s : State) : Prop where
  bufWf          : s.buf.wf = true
  plenLe         : s.plen.toNat ≤ 64
  fillLe         : s.fill.toNat ≤ s.plen.toNat
  inPayload      : s.stage = .awaitingPayload → s.fill.toNat < s.plen.toNat
  inChecksum     : s.stage = .awaitingChecksum → s.fill.toNat = s.plen.toNat
  inMagic        : s.stage = .awaitingMagic → s.ptype = 0 ∧ s.plen = 0 ∧ s.fill = 0
  inType         : s.stage = .awaitingType → s.ptype = 0 ∧ s.plen = 0 ∧ s.fill = 0
  inLength       : s.stage = .awaitingLength → s.plen = 0 ∧ s.fill = 0
  inBurst        : s.dstage = .burst → s.stage = .awaitingMagic ∧ s.dSent ≠ 0
  inIdle         : s.dstage = .idle → s.dSent = 0
  deadlineFits   : s.deadline < 2 ^ Config.timeW
  dDeadlineFits  : s.dDeadline < 2 ^ Config.timeW

/-- The run has settled (R186): every byte of the stream is consumed (none waits in the queue, and the script still to come
carries none), `dstage = DIdle`, `stage = AwaitingMagic`. The stream of a claim is finite: what waits and what the script
carries; what the free environment does after the script belongs to no such stream (DESIGN CHOICE, log 26). -/
structure Settled (s : State) : Prop where
  arrived : ∀ c ∈ s.script, c.arrivals = []
  waiting : s.rx = []
  dstage  : s.dstage = .idle
  stage   : s.stage = .awaitingMagic

/-- A coordinate lies in the device's logical range (R9, `COORD_MAX`). The block never tests it (R158): a claim that needs it
takes it as a premise. -/
def coordInRange (x : Half) : Bool := decide (x.toNat ≤ Config.coordMax)

/-- A cycle without reset and without a byte: the environment offers nothing further (R186). -/
def Silent (c : Cycle) : Prop := c.rstN = true ∧ c.arrivals = []

/-- A cycle that comes more than a watchdog window after its predecessor. -/
def isLate (c : Cycle) : Bool := decide (Config.timeoutTicks < c.advance)

/-- The environment of two states is the same: what the ports carry, what waits, what is still to come. -/
structure SameEnvironment (s t : State) : Prop where
  now          : t.now = s.now
  devReady     : t.devReady = s.devReady
  devSuspended : t.devSuspended = s.devSuspended
  rx           : t.rx = s.rx
  script       : t.script = s.script
  cycles       : t.cycles = s.cycles

/-- No dispatcher register differs (R27 to R30). -/
structure SameDispatcher (s t : State) : Prop where
  dstage    : t.dstage = s.dstage
  dSent     : t.dSent = s.dSent
  dDeadline : t.dDeadline = s.dDeadline
  dButtons  : t.dButtons = s.dButtons
  dX        : t.dX = s.dX
  dY        : t.dY = s.dY

/-- No parser register differs (R21 to R24, R26); the buffer is `SameBuffer`. -/
structure SameParser (s t : State) : Prop where
  stage    : t.stage = s.stage
  ptype    : t.ptype = s.ptype
  plen     : t.plen = s.plen
  fill     : t.fill = s.fill
  deadline : t.deadline = s.deadline

/-- Every byte of the buffer reads as before. -/
def SameBuffer (s t : State) : Prop := ∀ a, t.buf.read a = s.buf.read a

/-- The registers after `FrameReset` (R111). -/
structure FrameEmpty (t : State) : Prop where
  stage : t.stage = .awaitingMagic
  ptype : t.ptype = 0
  plen  : t.plen = 0
  fill  : t.fill = 0

/-- The trace has gained exactly these actions, in this order, stamped with the `now` of the state. -/
def Emitted (s t : State) (acts : List Action) : Prop := t.trace = s.trace ++ acts.map (fun a => (s.now, a))

/-- States that differ in dead registers only (R38). -/
structure Equiv (s t : State) : Prop where
  stage     : t.stage = s.stage
  ptype     : t.ptype = s.ptype
  plen      : t.plen = s.plen
  fill      : t.fill = s.fill
  dstage    : t.dstage = s.dstage
  dSent     : t.dSent = s.dSent
  buf       : ∀ a, a < s.fill.toNat → t.buf.read a = s.buf.read a
  deadline  : s.stage ≠ .awaitingMagic → t.deadline = s.deadline
  burstRegs : s.dstage = .burst →
    t.dDeadline = s.dDeadline ∧ t.dButtons = s.dButtons ∧ t.dX = s.dX ∧ t.dY = s.dY
  env       : SameEnvironment s t

/-- The packets delivered in a trace, as type and payload, in order. -/
def deliveries (tr : List (Nat × Action)) : List (Byte × List Byte) :=
  tr.filterMap fun e =>
    match e.2 with
    | .deliver t _ p => some (t, p)
    | _ => none

/-- A report to the sink. -/
def isReport : Action → Bool
  | .mouseReport _ _ _ => true
  | .kbdReport _ _ => true
  | _ => false

/-- A `Drop` mark of the trace. -/
def isDrop : Action → Bool
  | .drop _ => true
  | _ => false

/-- A hand-over of a packet. -/
def isDeliver : Action → Bool
  | .deliver _ _ _ => true
  | _ => false

/-- How many actions of a kind a trace holds. -/
def count (f : Action → Bool) (tr : List (Nat × Action)) : Nat := tr.countP fun e => f e.2

/-- The observable trace (R185): without `Drop` marks. -/
def observable (tr : List (Nat × Action)) : List (Nat × Action) := tr.filter fun e => !isDrop e.2

/-- The sink trace (R185): without `Drop` marks and `Deliver`. -/
def sinkTrace (tr : List (Nat × Action)) : List (Nat × Action) :=
  tr.filter fun e => !isDrop e.2 && !isDeliver e.2

/-- Emissions the burst in progress still owes. -/
def owed (s : State) : Nat := if s.dstage = .burst then 3 - s.dSent.toNat else 0

/-- What holds of the trace of every run (R185, R188): the stamps never decrease and none lies after `now`; a delivered
length is the number of payload bytes and at most 64 (R188 item 1); the reports, with those a burst still owes, are at most
three for each delivery (R188 item 5). -/
structure TraceInv (s : State) : Prop where
  ordered : s.trace.Pairwise (fun e f => e.1 ≤ f.1)
  past    : ∀ e ∈ s.trace, e.1 ≤ s.now
  lengths : ∀ e ∈ s.trace, ∀ t l p, e.2 = .deliver t l p → l = p.length ∧ l ≤ 64
  reports : count isReport s.trace + owed s ≤ 3 * count isDeliver s.trace

/-- The state in which the step of the coming cycle begins: its inputs are on the ports. -/
def opened (s : State) : State := openCycle (nextCycle s) s

/-- What part 1 of a step leaves (R142): the frame abandoned if the watchdog has expired, else the state as it was. -/
def afterWatchdog (s : State) : State := if wdExpired s then parserDrop .timeout s else s

/-- In state `s` the byte `b` selects the operation `i` (R84). -/
def Selects (s : State) (b : Byte) (i : Instr) : Prop := ∃ c, byteCtx s = some c ∧ decodeByte c b = i

/-- The eight rows of the table that stand for the command `RSVD` (R86). -/
def isReserved : Instr → Bool
  | .rsvd00 _ => true
  | .rsvd03 _ => true
  | .rsvd0407 _ _ => true
  | .rsvd080F _ _ => true
  | .rsvd101F _ _ => true
  | .rsvd203F _ _ => true
  | .rsvd407F _ _ => true
  | .rsvd80FF _ _ => true
  | _ => false

/-- Operation `i` in state `s` performs the frame command `j`: it is `j`, or it is the `CSUM_OK` that dispatches it (R120). -/
def Performs (i : Instr) (s : State) (j : Instr) : Prop :=
  i = j ∨ ∃ b, i = .csumOk b ∧ j = decodeCommand s.ptype (s.buf.readList s.plen.toNat)

/-- The coming cycle is a step of a run: reset is not asserted (R241) and time fits (R145). -/
def StepCycle (s : State) : Prop := (nextCycle s).rstN = true ∧ timeFits (opened s).now = true

end Sys2Proof.Safety
end

