-- ==== Sys2Proof/Certificates/Slice0/Obligations.lean ====
section
/-! DEFINITION. The statements for the provers. Each docstring names the rule of spec/ a statement comes from; where a clause
rests on a choice of the spec ("decision") or of the model, it names that too. -/

open Sys2Proof Sys2Proof.Machine Sys2Proof.Safety

/-! ### Encoding and decoding (30_encoding.md) -/

/-- 30_encoding.md sections 1, 4, 5 (R70, R86, R88): decoding the frame of a well-formed command gives the command back,
with every payload and every free type bit, and leaves the bytes that follow. -/
def Obligations.FrameDecodesToItsCommand : Prop :=
  ∀ (i : Instr) (rest : List Byte), i.format = .frame → i.wf = true → decodeFrame (encode i ++ rest) = .ok i rest

/-- 30_encoding.md section 4 (R84, R87): for every context and byte the decoder's operation is a well-formed BYTE row that
applies and is encoded by that byte, and it is the only one. `LEN_ZERO` as a row of its own is the spec's decision D10 (log
10), the reading of the table its decision D22 (log 20). -/
def Obligations.ExactlyOneByteRowApplies : Prop :=
  ∀ (c : ByteCtx) (b : Byte),
    ((decodeByte c b).format = .byte ∧ (decodeByte c b).wf = true ∧ rowApplies c (decodeByte c b) = true ∧
      encode (decodeByte c b) = [b]) ∧
    ∀ i : Instr, i.wf = true → rowApplies c i = true → encode i = [b] → i = decodeByte c b

/-- 30_encoding.md section 4 (R84): the map from (stage, class of the byte) to the byte operation, row by row, in every
state of the invariant. That a length byte of 0 selects an operation of its own, `LEN_ZERO`, is the spec's decision D10 on
its conflict C1 (R115; log 10, unsafe). -/
def Obligations.ByteOperationSelectedByStageAndByte : Prop :=
  ∀ (s : State) (b : Byte), Inv s → ∃ c, byteCtx s = some c ∧
    (s.stage = .awaitingMagic → b = 0xAA → decodeByte c b = .syncHit) ∧
    (s.stage = .awaitingMagic → b ≠ 0xAA → decodeByte c b = .syncMiss b) ∧
    (s.stage = .awaitingType → decodeByte c b = .typeByte b) ∧
    (s.stage = .awaitingLength → b = 0 → decodeByte c b = .lenZero) ∧
    (s.stage = .awaitingLength → 1 ≤ b.toNat → b.toNat ≤ 64 → decodeByte c b = .lenOk b) ∧
    (s.stage = .awaitingLength → 65 ≤ b.toNat → decodeByte c b = .lenOver b) ∧
    (s.stage = .awaitingPayload → s.fill.toNat + 1 < s.plen.toNat → decodeByte c b = .pay b) ∧
    (s.stage = .awaitingPayload → s.fill.toNat + 1 = s.plen.toNat → decodeByte c b = .payLast b) ∧
    (s.stage = .awaitingPayload → s.fill.toNat + 1 < s.plen.toNat ∨ s.fill.toNat + 1 = s.plen.toNat) ∧
    (s.stage = .awaitingChecksum → b = checksum s.ptype s.plen (s.buf.readList s.plen.toNat) →
      decodeByte c b = .csumOk b) ∧
    (s.stage = .awaitingChecksum → b ≠ checksum s.ptype s.plen (s.buf.readList s.plen.toNat) →
      decodeByte c b = .csumBad b)

/-- 30_encoding.md section 1 (R70, R72, R74, R75): a list that does not begin with the magic byte, that declares more than
64 bytes, or whose checksum byte differs is rejected by name. -/
def Obligations.InvalidFramesRejectedByName : Prop :=
  (∀ (m : Byte) (rest : List Byte), m ≠ 0xAA → decodeFrame (m :: rest) = .rejected .badMagic) ∧
  (∀ (t n : Byte) (rest : List Byte), 64 < n.toNat → decodeFrame (0xAA :: t :: n :: rest) = .rejected .oversize) ∧
  (∀ (t c : Byte) (p rest : List Byte), p.length ≤ 64 → c ≠ checksum t (lengthByte p) p →
    decodeFrame ([0xAA, t, lengthByte p] ++ p ++ [c] ++ rest) = .rejected .badChecksum)

/-- Words written out from the spec's encodings: the frame of S2, V20 and V21 of 95_test_vectors.md, and bytes of R84. That
a frame without payload is one is the spec's decision D10 (log 10). -/
def Obligations.SpecWordsDecode : Prop :=
  decodeFrame [0xAA, 0x01, 0x05, 0x34, 0x12, 0x00, 0x00, 0x05, 0x51] = .ok (.mouse [0x34, 0x12, 0x00, 0x00, 0x05]) [] ∧
  decodeFrame [0xAA, 0x02, 0x07, 0x02, 0x04, 0x00, 0x00, 0x00, 0x00, 0x00, 0x0F] =
    .ok (.keyboard [0x02, 0x04, 0x00, 0x00, 0x00, 0x00, 0x00]) [] ∧
  decodeFrame [0xAA, 0x09, 0x00, 0x09] = .ok (.rsvd080F 1 []) [] ∧
  decodeByte ⟨.awaitingMagic, false, 0⟩ 0xAA = .syncHit ∧
  decodeByte ⟨.awaitingLength, false, 0⟩ 0x41 = .lenOver 0x41

/-! ### The checksum (40_checksum.md) -/

/-- R100, R101: the exact sum of type, length and payload bytes, reduced modulo 256 once, for every length up to 255 and every
payload of that length; the type itself for a zero-length frame. Other calls the source does not define
(`ChecksumOfOtherLengths`). -/
def Obligations.ChecksumIsSumModulo256 : Prop :=
  (∀ (t n : Byte) (p : List Byte), p.length = n.toNat →
    (checksum t n p).toNat = (t.toNat + n.toNat + (p.map BitVec.toNat).sum) % 256) ∧
  ∀ t : Byte, checksum t 0 [] = t

/-- 40_checksum.md, R102 item 1 and R103 (derived there): a running 8-bit sum in which every addition discards its carry. For
a payload of another length than `n` that is the model's choice (log 25). -/
def Obligations.ChecksumIsRunningByteSum : Prop :=
  ∀ (t n : Byte) (p : List Byte), checksum t n p = p.foldl (fun acc b => acc + b) (t + n)

/-- 40_checksum.md, R102 item 3 and R104 items 2 and 3 (derived there): the order of the payload bytes does not matter; one
changed byte always shows. For a payload of another length than `n` that is the model's choice (log 25). -/
def Obligations.ChecksumOrderAndSensitivity : Prop :=
  (∀ (t n : Byte) (p q : List Byte), p.Perm q → checksum t n p = checksum t n q) ∧
  (∀ (t n b : Byte) (p : List Byte) (k : Nat) (h : k < p.length), p[k] ≠ b → checksum t n (p.set k b) ≠ checksum t n p) ∧
  (∀ (t u n : Byte) (p : List Byte), t ≠ u → checksum t n p ≠ checksum u n p)

/-! ### The byte operations (41_frame_parser.md)

`exec` in a state that does not select the operation is the model's choice (log 18). -/

/-- R112. -/
def Obligations.SyncHitStartsFrame : Prop :=
  (∀ s : State, s.stage = .awaitingMagic → Selects s 0xAA .syncHit) ∧
  ∀ s : State, ∃ t, exec .syncHit s = .next t ∧
    t.stage = .awaitingType ∧ t.deadline = s.now + Config.timeoutTicks ∧
    t.ptype = s.ptype ∧ t.plen = s.plen ∧ t.fill = s.fill ∧
    SameBuffer s t ∧ SameDispatcher s t ∧ SameEnvironment s t ∧ t.trace = s.trace

/-- R113. The mark is a ghost entry of the trace (R14, the spec's decision D16; log 12). -/
def Obligations.SyncMissChangesNoRegister : Prop :=
  (∀ (b : Byte) (s : State), s.stage = .awaitingMagic → b ≠ 0xAA → Selects s b (.syncMiss b)) ∧
  ∀ (b : Byte) (s : State), ∃ t, exec (.syncMiss b) s = .next t ∧
    SameParser s t ∧ SameBuffer s t ∧ SameDispatcher s t ∧ SameEnvironment s t ∧ Emitted s t [.drop .badMagic]

/-- R114. -/
def Obligations.TypeByteStoredUnchanged : Prop :=
  (∀ (b : Byte) (s : State), s.stage = .awaitingType → Selects s b (.typeByte b)) ∧
  ∀ (b : Byte) (s : State), ∃ t, exec (.typeByte b) s = .next t ∧
    t.ptype = b ∧ t.stage = .awaitingLength ∧ t.deadline = s.now + Config.timeoutTicks ∧
    t.plen = s.plen ∧ t.fill = s.fill ∧
    SameBuffer s t ∧ SameDispatcher s t ∧ SameEnvironment s t ∧ t.trace = s.trace

/-- 41_frame_parser.md section 4, `LEN_ZERO` (R115, the spec's decision D10 on conflict C1; log 10). -/
def Obligations.ZeroLengthGoesToChecksum : Prop :=
  (∀ s : State, s.stage = .awaitingLength → Selects s 0 .lenZero) ∧
  ∀ s : State, ∃ t, exec .lenZero s = .next t ∧
    t.plen = 0 ∧ t.fill = 0 ∧ t.stage = .awaitingChecksum ∧ t.deadline = s.now + Config.timeoutTicks ∧
    t.ptype = s.ptype ∧
    SameBuffer s t ∧ SameDispatcher s t ∧ SameEnvironment s t ∧ t.trace = s.trace

/-- R116. -/
def Obligations.LegalLengthOpensPayload : Prop :=
  (∀ (b : Byte) (s : State), s.stage = .awaitingLength → 1 ≤ b.toNat → b.toNat ≤ 64 → Selects s b (.lenOk b)) ∧
  ∀ (b : Byte) (s : State), ∃ t, exec (.lenOk b) s = .next t ∧
    t.plen = b ∧ t.fill = 0 ∧ t.stage = .awaitingPayload ∧ t.deadline = s.now + Config.timeoutTicks ∧
    t.ptype = s.ptype ∧
    SameBuffer s t ∧ SameDispatcher s t ∧ SameEnvironment s t ∧ t.trace = s.trace

/-- 41_frame_parser.md section 4, `LEN_OVER` (R117): the frame is dropped, nothing else changes. What `FrameReset` clears
and leaves (`ptype` and `plen` cleared, `buf` and `deadline` left) is the spec's decision D9 (R111; log 11). The mark is a
ghost entry of the trace (R14, the spec's decision D16; log 12). -/
def Obligations.OversizeLengthDropsFrame : Prop :=
  (∀ (b : Byte) (s : State), s.stage = .awaitingLength → 65 ≤ b.toNat → Selects s b (.lenOver b)) ∧
  ∀ (b : Byte) (s : State), ∃ t, exec (.lenOver b) s = .next t ∧
    FrameEmpty t ∧ t.deadline = s.deadline ∧
    SameBuffer s t ∧ SameDispatcher s t ∧ SameEnvironment s t ∧ Emitted s t [.drop .oversize]

/-- R118: in every state whose fill count is an index of the buffer (which a payload stage always has, R36 item 4). -/
def Obligations.PayloadByteAppended : Prop :=
  (∀ (b : Byte) (s : State), s.stage = .awaitingPayload → s.fill.toNat + 1 < s.plen.toNat → Selects s b (.pay b)) ∧
  ∀ (b : Byte) (s : State), s.buf.wf = true → s.fill.toNat < 64 → ∃ t, exec (.pay b) s = .next t ∧
    t.buf.read s.fill.toNat = b ∧ (∀ a, a ≠ s.fill.toNat → t.buf.read a = s.buf.read a) ∧
    t.fill.toNat = s.fill.toNat + 1 ∧
    t.stage = s.stage ∧ t.ptype = s.ptype ∧ t.plen = s.plen ∧ t.deadline = s.deadline ∧
    SameDispatcher s t ∧ SameEnvironment s t ∧ t.trace = s.trace

/-- R119: in every state whose fill count is an index of the buffer; where it is the last index the payload needs, the fill
count has reached the declared length. -/
def Obligations.LastPayloadByteAppended : Prop :=
  (∀ (b : Byte) (s : State), s.stage = .awaitingPayload → s.fill.toNat + 1 = s.plen.toNat → Selects s b (.payLast b)) ∧
  ∀ (b : Byte) (s : State), s.buf.wf = true → s.fill.toNat < 64 → ∃ t, exec (.payLast b) s = .next t ∧
    t.buf.read s.fill.toNat = b ∧ (∀ a, a ≠ s.fill.toNat → t.buf.read a = s.buf.read a) ∧
    t.fill.toNat = s.fill.toNat + 1 ∧ (s.fill.toNat + 1 = s.plen.toNat → t.fill.toNat = t.plen.toNat) ∧
    t.stage = .awaitingChecksum ∧ t.ptype = s.ptype ∧ t.plen = s.plen ∧ t.deadline = s.deadline ∧
    SameDispatcher s t ∧ SameEnvironment s t ∧ t.trace = s.trace

/-- The model's choice (log 16), in no reachable state: an access outside the 64 cells of the buffer faults. -/
def Obligations.AccessOutsideBufferFaults : Prop :=
  ∀ (b : Byte) (s : State),
    (64 ≤ s.fill.toNat → exec (.pay b) s = .fault .bufferIndex ∧ exec (.payLast b) s = .fault .bufferIndex) ∧
    (64 < s.plen.toNat → exec (.csumOk b) s = .fault .bufferIndex)

/-- 41_frame_parser.md section 6, `CSUM_OK` (R120): the packet of the registers before the reset is dispatched from the
emptied frame; its hand-over is the first action of the operation. What `FrameReset` clears is the spec's decision D9
(R111; log 11); that the dispatch happens in the same step is its decision D24 (log 22). The hand-over as an action, and
first, is its decisions D23 and D25 (log 12). -/
def Obligations.MatchingChecksumDispatchesPacket : Prop :=
  (∀ (b : Byte) (s : State), s.stage = .awaitingChecksum → s.plen.toNat ≤ 64 →
    b = checksum s.ptype s.plen (s.buf.readList s.plen.toNat) → Selects s b (.csumOk b)) ∧
  ∀ (b : Byte) (s : State), s.plen.toNat ≤ 64 → ∃ u t,
    FrameEmpty u ∧ u.deadline = s.deadline ∧ SameBuffer s u ∧ SameDispatcher s u ∧ SameEnvironment s u ∧
    u.trace = s.trace ∧
    exec (.csumOk b) s = .next t ∧
    dispatch ⟨s.ptype, s.buf.readList s.plen.toNat⟩ u = .next t ∧
    (∃ acts, Emitted s t (.deliver s.ptype s.plen.toNat (s.buf.readList s.plen.toNat) :: acts)) ∧
    FrameEmpty t ∧ t.deadline = s.deadline ∧ SameBuffer s t ∧ SameEnvironment s t

/-- 41_frame_parser.md section 6, `CSUM_BAD` (R121): the frame is dropped, nothing else changes. What `FrameReset` clears is
the spec's decision D9 (R111; log 11). The mark is a ghost entry of the trace (R14, the spec's decision D16; log 12). -/
def Obligations.WrongChecksumDropsFrame : Prop :=
  (∀ (b : Byte) (s : State), s.stage = .awaitingChecksum → s.plen.toNat ≤ 64 →
    b ≠ checksum s.ptype s.plen (s.buf.readList s.plen.toNat) → Selects s b (.csumBad b)) ∧
  ∀ (b : Byte) (s : State), ∃ t, exec (.csumBad b) s = .next t ∧
    FrameEmpty t ∧ t.deadline = s.deadline ∧
    SameBuffer s t ∧ SameDispatcher s t ∧ SameEnvironment s t ∧ Emitted s t [.drop .badChecksum]

/-! ### The time operations (42_watchdog.md, 43_dispatcher.md section 5)

`exec` in a state that does not select the operation is the model's choice (log 18). -/

/-- 42_watchdog.md, `WD_EXPIRE` (R141), and 60_exceptions.md section 4 (R206, `Timeout`): the frame is dropped, nothing
else changes. What `FrameReset` clears is the spec's decision D9 (R111; log 11). The mark is a ghost entry of the trace
(R14, the spec's decision D16; log 12). -/
def Obligations.WatchdogExpiryDropsFrame : Prop :=
  ∀ s : State, ∃ t, exec .wdExpire s = .next t ∧
    FrameEmpty t ∧ t.deadline = s.deadline ∧
    SameBuffer s t ∧ SameDispatcher s t ∧ SameEnvironment s t ∧ Emitted s t [.drop .timeout]

/-- 43_dispatcher.md section 5, `BURST_NEXT` (R162; the spec's decisions D6, D13, D21; log 8), in every state whose count of
emissions is below 3. That it emits whatever the device answers, without asking again, is its decision D12 on conflict C4
(R160; log 9, unsafe). -/
def Obligations.BurstNextEmitsLatchedReport : Prop :=
  ∀ s : State, s.dSent.toNat < 3 → ∃ t, exec .burstNext s = .next t ∧
    t.dSent.toNat = s.dSent.toNat + 1 ∧ t.dDeadline = s.now + Config.pauseTicks ∧
    t.dstage = s.dstage ∧ t.dButtons = s.dButtons ∧ t.dX = s.dX ∧ t.dY = s.dY ∧
    SameParser s t ∧ SameBuffer s t ∧ SameEnvironment s t ∧
    Emitted s t [.mouseReport s.dButtons s.dX s.dY]

/-- 43_dispatcher.md section 5, `BURST_END` (R163; the spec's decisions D6, D13 on conflict C5; log 8). -/
def Obligations.BurstEndReturnsToIdle : Prop :=
  ∀ s : State, ∃ t, exec .burstEnd s = .next t ∧
    t.dstage = .idle ∧ t.dSent = 0 ∧
    t.dDeadline = s.dDeadline ∧ t.dButtons = s.dButtons ∧ t.dX = s.dX ∧ t.dY = s.dY ∧
    SameParser s t ∧ SameBuffer s t ∧ SameEnvironment s t ∧ t.trace = s.trace

/-! ### The frame commands (43_dispatcher.md)

`exec` in a state that does not select the operation is the model's choice (log 18). -/

/-- R155: for a packet of at least 5 bytes, byte 0 the low byte of x, byte 2 the low byte of y, byte 4 the buttons. That
no value is clamped or masked is R158 (the spec's decision D14; log 13). -/
def Obligations.MouseFieldsLittleEndian : Prop :=
  ∀ (p : List Byte) (h : 5 ≤ p.length),
    (mouseX p).toNat = p[0].toNat + 256 * p[1].toNat ∧
    (mouseY p).toNat = p[2].toNat + 256 * p[3].toNat ∧
    mouseButtons p = p[4]

/-- 43_dispatcher.md section 2, `MOUSE` (R156; the burst registers are the spec's decision D13, the pause counted from this
step D21; log 8; no value clamped or masked D14; log 13): a ready device and at least 5 bytes: emission 1 of 3, the command
latched, the burst begun. That the device is asked this once for the whole burst is decision D12 on conflict C4 (R160; log
9). -/
def Obligations.MouseBeginsBurst : Prop :=
  ∀ (p : List Byte) (s : State) (h : 5 ≤ p.length), s.devReady = true → ∃ t, exec (.mouse p) s = .next t ∧
    t.dstage = .burst ∧ t.dSent = 1 ∧ t.dDeadline = s.now + Config.pauseTicks ∧
    t.dButtons = p[4] ∧ t.dX.toNat = p[0].toNat + 256 * p[1].toNat ∧ t.dY.toNat = p[2].toNat + 256 * p[3].toNat ∧
    SameParser s t ∧ SameBuffer s t ∧ SameEnvironment s t ∧ Emitted s t [.mouseReport t.dButtons t.dX t.dY]

/-- R159: a ready device and at least 7 bytes: exactly one report with the modifiers and the six keycodes; no register is
written. The marks are ghost entries of the trace (R14, the spec's decision D16; log 12). That no value is masked and
surplus bytes are ignored is its decisions D14 and D15 (log 13). That the answer is that of the dispatching step is its
decision D12 (R152; log 9). -/
def Obligations.KeyboardEmitsOneReport : Prop :=
  (∀ (p : List Byte) (s : State), runCommand 0x02 p s = exec (.keyboard p) s) ∧
  ∀ (p : List Byte) (s : State),
    (∀ h : 7 ≤ p.length, s.devReady = true → ∃ t, exec (.keyboard p) s = .next t ∧
      SameParser s t ∧ SameBuffer s t ∧ SameDispatcher s t ∧ SameEnvironment s t ∧
      Emitted s t [.kbdReport p[0] ⟨p[1], p[2], p[3], p[4], p[5], p[6]⟩]) ∧
    (p.length < 7 → ∃ t, exec (.keyboard p) s = .next t ∧
      SameParser s t ∧ SameBuffer s t ∧ SameDispatcher s t ∧ SameEnvironment s t ∧ Emitted s t [.drop .undersized]) ∧
    (7 ≤ p.length → s.devReady = false → ∃ t, exec (.keyboard p) s = .next t ∧
      SameParser s t ∧ SameBuffer s t ∧ SameDispatcher s t ∧ SameEnvironment s t ∧ Emitted s t [.drop .notReady])

/-- 43_dispatcher.md sections 2, 3 and 6 (R156, R160, R166; one sample of readiness is the spec's decision D12, log 9): a
mouse command with fewer than 5 bytes, whatever the device answers, or with a device that is not ready, writes no register
and emits no report. The marks are ghost entries of the trace (R14, D16; log 12). -/
def Obligations.MouseDroppedWhenShortOrNotReady : Prop :=
  ∀ (p : List Byte) (s : State),
    (p.length < 5 → ∃ t, exec (.mouse p) s = .next t ∧
      SameParser s t ∧ SameBuffer s t ∧ SameDispatcher s t ∧ SameEnvironment s t ∧ Emitted s t [.drop .undersized]) ∧
    (5 ≤ p.length → s.devReady = false → ∃ t, exec (.mouse p) s = .next t ∧
      SameParser s t ∧ SameBuffer s t ∧ SameDispatcher s t ∧ SameEnvironment s t ∧ Emitted s t [.drop .notReady])

/-- R161, for the eight rows that stand for it (`RSVD_00`, `RSVD_03`, `RSVD_04_07`, `RSVD_08_0F`, `RSVD_10_1F`,
`RSVD_20_3F`, `RSVD_40_7F`, `RSVD_80_FF`): every other type selects one of them; no register is written, nothing is
emitted but the mark. The mark is a ghost entry of the trace (R14, the spec's decision D16; log 12). -/
def Obligations.ReservedTypesIgnored : Prop :=
  (∀ (t : Byte) (p : List Byte) (s : State), t ≠ 0x01 → t ≠ 0x02 →
    isReserved (decodeCommand t p) = true ∧ runCommand t p s = exec (decodeCommand t p) s) ∧
  ∀ (i : Instr) (s : State), isReserved i = true → ∃ t, exec i s = .next t ∧
    SameParser s t ∧ SameBuffer s t ∧ SameDispatcher s t ∧ SameEnvironment s t ∧ Emitted s t [.drop .reserved]

/-- R154: what the dispatcher runs for a packet is the command that all eight bits of its type select, and no other. The
mark is a ghost entry of the trace (R14, the spec's decision D16; log 12). -/
def Obligations.DispatcherBranchesOnType : Prop :=
  ∀ (t : Byte) (p : List Byte) (s : State),
    runCommand t p s = exec (decodeCommand t p) s ∧
    (t = 0x01 → decodeCommand t p = .mouse p) ∧
    (t = 0x02 → decodeCommand t p = .keyboard p) ∧
    (t ≠ 0x01 → t ≠ 0x02 → ∃ u, exec (decodeCommand t p) s = .next u ∧ Emitted s u [.drop .reserved] ∧
      SameParser s u ∧ SameBuffer s u ∧ SameDispatcher s u ∧ SameEnvironment s u)

/-- 43_dispatcher.md section 1 (R151, R153): a dispatch hands the packet over, then requests a wakeup exactly if the link
is suspended, once, before the command's own action, whatever the packet's type, length and the device's readiness; a drop
by the parser or the watchdog requests none. One request for each packet is the spec's decision D18 (log 9); the hand-over
as an action and the order of the actions are its decisions D23 and D25 (log 12). -/
def Obligations.WakeupRequestedBeforeCommand : Prop :=
  (∀ (t : Byte) (p : List Byte) (s : State), ∃ u a, dispatch ⟨t, p⟩ s = .next u ∧
    Emitted s u ([.deliver t p.length p] ++ (if s.devSuspended then [.wakeReq] else []) ++ [a]) ∧
    a ≠ .wakeReq ∧ isDeliver a = false) ∧
  (∀ (i : Instr) (s u : State),
    ((∃ b, i = .syncMiss b) ∨ (∃ b, i = .lenOver b) ∨ (∃ b, i = .csumBad b) ∨ i = .wdExpire) →
    exec i s = .next u → ∃ c, Emitted s u [.drop c])

/-! ### The step (44_step_and_laws.md) -/

/-- 44_step_and_laws.md section 3 (R183; the watchdog first is the spec's decision D4, log 6): when a byte is offered to
an idle dispatcher, the step is `exec` of the operation the byte decodes to, in the state the watchdog leaves, the byte
having left the queue; that operation is well formed. That a byte is taken exactly by an idle dispatcher is its decisions
D7 and D13 (R41; logs 5 and 8). -/
def Obligations.StepRunsDecodedByteOperation : Prop :=
  ∀ (s u : State) (c : ByteCtx) (b : Byte) (rest : List Byte),
    StepCycle s → (opened s).dstage = .idle → (opened s).rx = b :: rest →
    (if wdExpired (opened s) then exec .wdExpire (opened s) = .next u else u = opened s) →
    byteCtx u = some c →
    step s = exec (decodeByte c b) { u with rx := rest } ∧ (decodeByte c b).wf = true

/-- 44_step_and_laws.md section 3 (R183), 30_encoding.md section 4 (R85): with no byte to take, the step is the watchdog and
then the burst operation that is due, if one is. That the watchdog is evaluated in every step, and first, is the spec's
decision D4 (log 6), expiry only after the deadline its decision D5 (log 7); that a pause is over at equality is its
decision D6, at most one burst operation in a step its decision D27, and the burst's own form its decision D13 (log 8). That
a due emission does not ask the device again is its decision D12 (log 9). -/
def Obligations.StepRunsDueTimeOperations : Prop :=
  ∀ (s u : State),
    StepCycle s → (opened s).dstage = .burst ∨ (opened s).rx = [] →
    (if wdExpired (opened s) then exec .wdExpire (opened s) = .next u else u = opened s) →
    (pauseOver u = true → u.dSent.toNat < 3 → step s = exec .burstNext u) ∧
    (pauseOver u = true → 3 ≤ u.dSent.toNat → step s = exec .burstEnd u) ∧
    (pauseOver u = false → step s = .next u)

/-- 43_dispatcher.md section 1, 41_frame_parser.md section 6 (R120, R151): the step that consumes the checksum byte of a
valid frame inside its window runs `exec` of the command that the packet decodes to, from a state with an empty frame and
an idle dispatcher, the packet handed over and the wakeup requested. That the window is still open at `now = deadline` is
the spec's decision D5 (log 7); the dispatch in the same step its decision D24 (log 22). The empty frame is its decision
D9 (log 11), the hand-over as an action and the order of the actions its decisions D23 and D25 (log 12). -/
def Obligations.StepRunsDecodedFrameCommand : Prop :=
  ∀ (s : State) (b : Byte) (rest p : List Byte),
    Inv s → StepCycle s → s.dstage = .idle → s.stage = .awaitingChecksum → (opened s).now ≤ s.deadline →
    (opened s).rx = b :: rest → p = s.buf.readList s.plen.toNat → b = checksum s.ptype s.plen p →
    ∃ u, step s = exec (decodeCommand s.ptype p) u ∧ (decodeCommand s.ptype p).wf = true ∧
      FrameEmpty u ∧ u.dstage = .idle ∧ SameBuffer s u ∧ u.rx = rest ∧
      u.now = (opened s).now ∧ u.devReady = (opened s).devReady ∧
      u.trace = s.trace ++ [((opened s).now, .deliver s.ptype p.length p)] ++
        (if (opened s).devSuspended then [((opened s).now, .wakeReq)] else [])

/-- 42_watchdog.md (R142; the spec's decision D4, log 6) and R215: a byte consumed after the deadline abandons the frame and
is examined once, as a candidate magic byte. What is cleared and left is the spec's decision D9 (R111; log 11). The marks
are ghost entries of the trace (D16; log 12). -/
def Obligations.LateByteExaminedAsMagic : Prop :=
  ∀ (s : State) (b : Byte) (rest : List Byte),
    Inv s → StepCycle s → s.dstage = .idle → s.stage ≠ .awaitingMagic → s.deadline < (opened s).now →
    (opened s).rx = b :: rest →
    ∃ t, step s = .next t ∧ t.rx = rest ∧ t.ptype = 0 ∧ t.plen = 0 ∧ t.fill = 0 ∧ SameBuffer s t ∧ SameDispatcher s t ∧
      (b = 0xAA → t.stage = .awaitingType ∧ t.deadline = (opened s).now + Config.timeoutTicks ∧
        t.trace = s.trace ++ [((opened s).now, .drop .timeout)]) ∧
      (b ≠ 0xAA → t.stage = .awaitingMagic ∧ t.deadline = s.deadline ∧
        t.trace = s.trace ++ [((opened s).now, .drop .timeout), ((opened s).now, .drop .badMagic)])

/-- 42_watchdog.md (R147, derived there): with no byte, the parser is in its initial stage after the first step later than
its deadline, and nothing has been delivered or emitted. That every step evaluates the watchdog is the spec's decision D4
(log 6), what is cleared and left its decision D9 (log 11). The mark is a ghost entry of the trace (D16; log 12). -/
def Obligations.StalledFrameAbandoned : Prop :=
  ∀ s : State, Inv s → StepCycle s → (opened s).rx = [] → s.deadline < (opened s).now → s.stage ≠ .awaitingMagic →
    ∃ t, step s = .next t ∧ FrameEmpty t ∧ SameBuffer s t ∧ SameDispatcher s t ∧ t.deadline = s.deadline ∧
      t.trace = s.trace ++ [((opened s).now, .drop .timeout)]

/-- 43_dispatcher.md section 5 (R164, derived there; R27, R182): during a burst the step takes no byte, hands nothing over
and leaves the parser in its initial stage; bytes that arrive wait behind those already held. That a burst is held in
registers and stalls the byte input is the spec's decision D13, the pause over at equality its decision D6 (log 8). That it
goes on whatever the device answers is its decision D12 on conflict C4 (log 9). -/
def Obligations.BurstHoldsInput : Prop :=
  ∀ s : State, Inv s → StepCycle s → s.dstage = .burst →
    ∃ t, step s = .next t ∧ t.rx = s.rx ++ (nextCycle s).arrivals ∧ SameParser s t ∧ SameBuffer s t ∧
      t.dButtons = s.dButtons ∧ t.dX = s.dX ∧ t.dY = s.dY ∧ deliveries t.trace = deliveries s.trace ∧
      ((opened s).now < s.dDeadline → SameDispatcher s t ∧ t.trace = s.trace)

/-- 43_dispatcher.md section 5 and 44_step_and_laws.md (R162, R163, R189; decisions D6, D13, D21, D27; log 8): steps that
each come when the pause is over make the emissions still owed, all of the latched command, and end the burst. That the
burst makes exactly the reports it owes whatever the device answers in those cycles is the spec's decision D12 on its
conflict C4 (R160, R191 item 3; log 9 names this claim as unsafe). -/
def Obligations.BurstRunsToItsEnd : Prop :=
  ∀ (s : State) (c : Cycle) (cs more : List Cycle),
    Inv s → s.dstage = .burst → s.script = c :: (cs ++ more) → cs.length + s.dSent.toNat = 3 →
    (∀ k ∈ c :: cs, k.rstN = true) → s.dDeadline ≤ s.now + c.advance →
    (∀ k ∈ cs, Config.pauseTicks ≤ k.advance) →
    timeFits (s.now + c.advance + (cs.map Cycle.advance).sum) = true →
    ∃ t, Host.Core.run Sys2Proof.core (cs.length + 1) s = .next t ∧ t.dstage = .idle ∧ t.dSent = 0 ∧
      t.stage = .awaitingMagic ∧
      ∃ l, t.trace = s.trace ++ l ∧ l.map Prod.snd = List.replicate cs.length (.mouseReport s.dButtons s.dX s.dY)

/-- 41_frame_parser.md sections 7 and 8 (R123, R124, derived there): a frame that waits in the queue of an idle block and
is taken within its three windows is delivered exactly if its checksum byte matches, whatever its bytes; and the parser is
in its initial stage after it. That a window is still open when it is used to the full is the spec's decision D5 (log 7).
That a frame without payload is delivered is its decision D10 (log 10), the delivery in the step of the checksum byte its
decision D24 (log 22), the delivery as an action its decision D23 (log 12). -/
def Obligations.FrameWithinWindowsDeliveredIffValid : Prop :=
  ∀ (s : State) (t c : Byte) (p rest : List Byte) (c0 c1 c2 : Cycle) (cs more : List Cycle),
    Inv s → s.stage = .awaitingMagic → s.dstage = .idle → p.length ≤ 64 →
    s.rx = [0xAA, t, lengthByte p] ++ p ++ [c] ++ rest →
    s.script = [c0, c1, c2] ++ cs ++ more → cs.length = p.length + 1 →
    (∀ k ∈ [c0, c1, c2] ++ cs, k.rstN = true) →
    c1.advance ≤ Config.timeoutTicks → c2.advance ≤ Config.timeoutTicks →
    (cs.map Cycle.advance).sum ≤ Config.timeoutTicks →
    timeFits (s.now + c0.advance + c1.advance + c2.advance + (cs.map Cycle.advance).sum) = true →
    ∃ u, Host.Core.run Sys2Proof.core (p.length + 4) s = .next u ∧ u.stage = .awaitingMagic ∧
      u.rx = rest ++ ([c0, c1, c2] ++ cs).flatMap Cycle.arrivals ∧
      deliveries u.trace = deliveries s.trace ++ (if c = checksum t (lengthByte p) p then [(t, p)] else [])

/-- 70_reset_and_hazards.md (R241; the spec's decisions D2, D19, D26; log 15): a cycle with reset asserted loads the reset
values, takes no byte and emits nothing. -/
def Obligations.ResetCycleLoadsResetValues : Prop :=
  ∀ s : State, timeFits (opened s).now = true → (nextCycle s).rstN = false →
    ∃ t, step s = .next t ∧ FrameEmpty t ∧ t.dstage = .idle ∧ t.dSent = 0 ∧ SameBuffer s t ∧
      t.deadline = s.deadline ∧ t.dDeadline = s.dDeadline ∧ t.dButtons = s.dButtons ∧ t.dX = s.dX ∧ t.dY = s.dY ∧
      t.rx = s.rx ++ (nextCycle s).arrivals ∧ t.trace = s.trace

/-- 42_watchdog.md (R145) and 93_implementation_defined.md I7 (log 2): the step refuses exactly the cycles in which a
deadline armed now would not fit `TIME_W` = 64 bits. -/
def Obligations.StepRefusesExactlyWrappingTime : Prop :=
  ∀ s : State, (∃ r, step s = .refused r) ↔
    2 ^ 64 ≤ (opened s).now + Config.timeoutTicks ∨ 2 ^ 64 ≤ (opened s).now + Config.pauseTicks

/-! ### Invariants and laws of runs (10_state.md section 8, 44_step_and_laws.md section 6) -/

/-- 10_state.md section 9 (R37, the spec's decision D19) and section 8 (R36): the reset state has the values R37 gives and
satisfies the invariants. -/
def Obligations.ResetStateSatisfiesInvariants : Prop :=
  Inv State.reset ∧ TraceInv State.reset ∧ FrameEmpty State.reset ∧
    State.reset.dstage = .idle ∧ State.reset.dSent = 0

/-- 10_state.md section 8 (R36, derived there): every step keeps the invariants, from every state that satisfies them.
That a frame at rest has an empty `ptype` and `plen` is the spec's decision D9 (log 11), that a burst stands in registers
its decision D13 (log 8). -/
def Obligations.StepKeepsInvariants : Prop :=
  ∀ s t : State, Inv s → step s = .next t → Inv t

/-- 44_step_and_laws.md sections 4 and 6 (R185, R188 items 1 and 5, derived there): every step keeps the invariants of the
trace. The hand-over as an action of the trace is the spec's decision D23 (log 12), the burst's count its decision D13
(log 8). -/
def Obligations.StepKeepsTraceLaws : Prop :=
  ∀ s t : State, Inv s → TraceInv s → step s = .next t → TraceInv t

/-- 60_exceptions.md (R203) and 44_step_and_laws.md section 3 (R183: the step is total): from a state of the invariant no step
faults, and every step whose time fits gives a next state. -/
def Obligations.StepNeverStops : Prop :=
  ∀ s : State, Inv s →
    (∀ f, step s ≠ .fault f) ∧ (timeFits (opened s).now = true → ∃ t, step s = .next t)

/-- 44_step_and_laws.md section 2 (R181, the spec's decisions D16, D23, D25): a step only adds to the trace, stamped with
its `now`: at most two marks, and at most one hand-over, one wakeup request and one report. One report a step rests on at
most one burst operation a step (D27; log 8), one request for each packet is D18 (log 9), their place in the step of the
hand-over D24 (log 22). -/
def Obligations.AtMostOneActionOfEachKind : Prop :=
  ∀ s t : State, step s = .next t →
    t.trace = s.trace ++ (stepActions s t).map (fun a => (t.now, a)) ∧
    (stepActions s t).countP isDeliver ≤ 1 ∧ (stepActions s t).count .wakeReq ≤ 1 ∧
    (stepActions s t).countP isReport ≤ 1 ∧ (stepActions s t).countP isDrop ≤ 2

/-- 44_step_and_laws.md section 6 (R188 item 1, derived there): a packet is handed over only by the step that consumes its
matching checksum byte, and it is the frame in flight. That the step lies inside the window (`now` at most `deadline`) is
not in R188: it rests on the watchdog being evaluated before the byte (44_step_and_laws.md section 3, 42_watchdog.md; R142,
R183; the spec's decision D4, log 6, which R191 item 1 warns of); that the window is open at equality is its decision D5
(log 7). The hand-over as an action is its decision D23 (log 12), the empty frame its decision D9 (log 11). That the
hand-over stands in the very step that consumes the checksum byte is its decision D24 (log 22, unsafe; R260 says that no
claim should rest on the delay being zero). -/
def Obligations.DeliveryNeedsMatchingChecksum : Prop :=
  ∀ (s t : State) (ty : Byte) (n : Nat) (p : List Byte),
    Inv s → step s = .next t → .deliver ty n p ∈ stepActions s t →
    s.stage = .awaitingChecksum ∧ (opened s).now ≤ s.deadline ∧ ty = s.ptype ∧ n = s.plen.toNat ∧ n ≤ 64 ∧
      p.length = n ∧ p = s.buf.readList n ∧ FrameEmpty t ∧
      (opened s).rx.head? = some (checksum ty s.plen p)

/-- 44_step_and_laws.md section 6 (R188 items 2 and 3, derived there): a report is either the latched command of the burst
in progress, or follows the hand-over of a long enough packet of its type to a ready device in the same step. That the
first report stands in the same step as its hand-over is not in R188: it is the spec's decision D24 (log 22; R260 says
that no claim should rest on the delay being zero). That a repeated report does not ask the device again is its decision
D12 (log 9), the latched command its decision D13 (log 8). -/
def Obligations.ReportsComeFromPackets : Prop :=
  ∀ s t : State, step s = .next t →
    (∀ b x y, .mouseReport b x y ∈ stepActions s t →
      (s.dstage = .burst ∧ b = s.dButtons ∧ x = s.dX ∧ y = s.dY) ∨
      (s.dstage = .idle ∧ t.dstage = .burst ∧ t.devReady = true ∧ ∃ p, 5 ≤ p.length ∧
        .deliver 0x01 p.length p ∈ stepActions s t ∧ b = mouseButtons p ∧ x = mouseX p ∧ y = mouseY p)) ∧
    (∀ m k, .kbdReport m k ∈ stepActions s t →
      t.devReady = true ∧ ∃ p, 7 ≤ p.length ∧ .deliver 0x02 p.length p ∈ stepActions s t ∧
        m = kbdModifiers p ∧ k = kbdKeycodes p)

/-- 44_step_and_laws.md section 6 (R188 item 4, derived there): a step requests a wakeup exactly if it hands a packet over
while the link is suspended. One request for each packet is the spec's decision D18 (log 9), the request in the step of the
hand-over its decision D24 (log 22). That the answer is that of this step is its decision D12 (R152; log 9). -/
def Obligations.WakeupExactlyWhenDeliveredSuspended : Prop :=
  ∀ s t : State, step s = .next t →
    (.wakeReq ∈ stepActions s t ↔ (∃ ty n p, .deliver ty n p ∈ stepActions s t) ∧ (opened s).devSuspended = true)

/-- 44_step_and_laws.md section 6 (R190 and R188 item 6, derived there): a step that hands nothing over, outside a burst,
adds nothing to the observable trace. That `Drop` marks are no part of the observable trace is R185 (the spec's decision
D16; log 12). -/
def Obligations.SilentWithoutDelivery : Prop :=
  ∀ s t : State, s.dstage = .idle → step s = .next t → (∀ a ∈ stepActions s t, isDeliver a = false) →
    observable t.trace = observable s.trace ∧ t.dstage = .idle

/-- 10_state.md section 9 (R38, derived there): states that differ in dead registers only take equal steps: the same actions,
and successors that again differ in dead registers only. -/
def Obligations.DeadRegistersUnobservable : Prop :=
  ∀ s s' t : State, Inv s → Inv s' → Equiv s s' → step s = .next t →
    ∃ t', step s' = .next t' ∧ stepActions s' t' = stepActions s t ∧ Equiv t t'

/-- 42_watchdog.md (R144): the deadline is armed by `SYNC_HIT`, `TYPE`, `LEN_ZERO` and `LEN_OK`, with the `now` of the
step, and written by nothing else. `LEN_ZERO` as an operation that arms is the spec's decision D10 (log 10); that
`FrameReset` leaves the deadline is its decision D9 (log 11). -/
def Obligations.DeadlineArmedByFourOperations : Prop :=
  ∀ (i : Instr) (s t : State), exec i s = .next t →
    ((i = .syncHit ∨ (∃ b, i = .typeByte b) ∨ i = .lenZero ∨ ∃ b, i = .lenOk b) →
      t.deadline = s.now + Config.timeoutTicks) ∧
    (¬ (i = .syncHit ∨ (∃ b, i = .typeByte b) ∨ i = .lenZero ∨ ∃ b, i = .lenOk b) → t.deadline = s.deadline)

/-- 60_exceptions.md section 4 (R206): what an operation that only drops does, by its cause: `BadMagic` changes nothing;
`Oversize`, `BadChecksum` and `Timeout` reset the frame and leave the dispatcher; a dispatcher-level drop changes no
register. What `FrameReset` clears and leaves (`ptype` and `plen` cleared, `buf` and `deadline` left) is the spec's
decision D9 (R111; log 11); the marks are ghost entries of the trace (D16; log 12). -/
def Obligations.DropEffectsByCause : Prop :=
  ∀ (i : Instr) (s t : State) (c : Cause), exec i s = .next t → Emitted s t [.drop c] →
    SameBuffer s t ∧ SameDispatcher s t ∧ SameEnvironment s t ∧
    (c = .badMagic → SameParser s t) ∧
    (c = .oversize ∨ c = .badChecksum ∨ c = .timeout → FrameEmpty t ∧ t.deadline = s.deadline) ∧
    (c = .undersized ∨ c = .notReady ∨ c = .reserved → SameParser s t)

/-- 10_state.md section 2 (R24): the fill count is set to 0 by `LEN_ZERO`, `LEN_OK` and the operations that reset the frame,
incremented by 1 by the payload operations, written by nothing else, and never above the declared length or 64. `LEN_ZERO`
as an operation is the spec's decision D10 (log 10), what `FrameReset` clears its decision D9 (R111; log 11). -/
def Obligations.FillCountWriters : Prop :=
  (∀ (i : Instr) (s t : State), exec i s = .next t →
    ((i = .lenZero ∨ (∃ b, i = .lenOk b) ∨ (∃ b, i = .lenOver b) ∨ (∃ b, i = .csumOk b) ∨ (∃ b, i = .csumBad b) ∨
      i = .wdExpire) → t.fill = 0) ∧
    ((∃ b, i = .pay b ∨ i = .payLast b) → t.fill.toNat = s.fill.toNat + 1) ∧
    (i = .syncHit ∨ (∃ b, i = .syncMiss b) ∨ (∃ b, i = .typeByte b) ∨ i = .burstNext ∨ i = .burstEnd ∨
      i.format = .frame → t.fill = s.fill)) ∧
  (∀ s t : State, Inv s → step s = .next t → t.fill.toNat ≤ t.plen.toNat ∧ t.fill.toNat ≤ 64)

/-- 20_memory.md section 4 (R55): the buffer is written by `PAY` and `PAY_LAST` only, one byte, at index `fill`; no other
cell changes. That `FrameReset` leaves the buffer is the spec's decision D9 (R111; log 11). -/
def Obligations.BufferWrittenByPayloadOperationsOnly : Prop :=
  ∀ (i : Instr) (s t : State), s.buf.wf = true → exec i s = .next t →
    (∀ b, i = .pay b ∨ i = .payLast b → s.fill.toNat < 64 ∧ t.buf.read s.fill.toNat = b ∧
      ∀ a, a ≠ s.fill.toNat → t.buf.read a = s.buf.read a) ∧
    ((∀ b, i ≠ .pay b ∧ i ≠ .payLast b) → t.buf = s.buf)

/-- 60_exceptions.md sections 2 and 8 (R204, R230), 10_state.md section 10 (R43): the device's two answers reach the block
at a delivery only. In a step that hands nothing over, other answers change no register and no action; in one that does,
they change neither the parser, the buffer nor the input. That the answers are read once for each packet, in the
dispatching step, and that a step of a burst does not ask again, is the spec's choice: decision D12 on its conflict C4
(R43, R160, R191 item 3; log 9, unsafe). -/
def Obligations.DeviceAnswersMatterOnlyAtDelivery : Prop :=
  ∀ (s t : State) (c : Cycle) (rest : List Cycle) (ready suspended : Bool),
    s.script = c :: rest → step s = .next t →
    ∃ u, step { s with script := { c with ready := ready, suspended := suspended } :: rest } = .next u ∧
      SameParser t u ∧ SameBuffer t u ∧ u.rx = t.rx ∧
      ((∀ a ∈ stepActions s t, isDeliver a = false) → SameDispatcher t u ∧ u.trace = t.trace)

/-- 10_state.md section 11 (R45, derived there): who writes the dispatcher's registers and the stage; and no operation
touches the environment or takes anything back from the trace. The burst registers are the spec's decision D13 (log 8). -/
def Obligations.OperationsRespectOwnership : Prop :=
  ∀ (i : Instr) (s t : State), exec i s = .next t →
    SameEnvironment s t ∧ (∃ acts, Emitted s t acts) ∧
    ((∀ b, i ≠ .csumOk b) → (∀ p, i ≠ .mouse p) → i ≠ .burstNext → i ≠ .burstEnd → SameDispatcher s t) ∧
    (i.format = .frame → SameParser s t) ∧
    (i = .burstNext ∨ i = .burstEnd → SameParser s t)

/-! ### The signal-level binding (10_state.md section 10) -/

/-- 10_state.md section 10 (R40 to R42; the spec's decisions D2, D7, D17, D23; log 21): each action of a step raises its port
with its fields, and no port is raised without one. That `rx_ready` is low while reset is asserted is not in R40 to R42: it is
70_reset_and_hazards.md section 1 (R241; the spec's decision D26, log 15). -/
def Obligations.PortsCarryStepActions : Prop :=
  ∀ s t : State, step s = .next t →
    ((outPorts s t).wakeReq = true ↔ .wakeReq ∈ stepActions s t) ∧
    ((outPorts s t).mouseValid = true ↔ ∃ b x y, .mouseReport b x y ∈ stepActions s t) ∧
    (∀ b x y, .mouseReport b x y ∈ stepActions s t →
      (outPorts s t).mouseButtons = b ∧ (outPorts s t).mouseX = x ∧ (outPorts s t).mouseY = y) ∧
    ((outPorts s t).kbdValid = true ↔ ∃ m k, .kbdReport m k ∈ stepActions s t) ∧
    (∀ m k, .kbdReport m k ∈ stepActions s t →
      (outPorts s t).kbdModifiers = m ∧ (outPorts s t).kbdKeycodes = packKeycodes k) ∧
    ((outPorts s t).pktValid = true ↔ ∃ ty n p, .deliver ty n p ∈ stepActions s t) ∧
    (∀ ty n p, .deliver ty n p ∈ stepActions s t →
      (outPorts s t).pktType = ty ∧ (outPorts s t).pktLen = BitVec.ofNat 7 n ∧
        (outPorts s t).pktPayload = packPayload (Config.undriven 7 s.cycles) p) ∧
    ((outPorts s t).rxReady = true ↔ (nextCycle s).rstN = true ∧ s.dstage = .idle)

/-- 10_state.md section 10 (R40): keycode slot `i` of the port is bits `8*i-1` to `8*i-8`, and payload byte `i` of the port
is bits `8*i+7` to `8*i`. The source gives no ports: R40's ports and their bit positions are the spec's own decision (D2,
D7, D17, D23; log 21). -/
def Obligations.PortBitPositions : Prop :=
  (∀ k : Keycodes, (packKeycodes k).extractLsb' 0 8 = k.key1 ∧ (packKeycodes k).extractLsb' 8 8 = k.key2 ∧
    (packKeycodes k).extractLsb' 16 8 = k.key3 ∧ (packKeycodes k).extractLsb' 24 8 = k.key4 ∧
    (packKeycodes k).extractLsb' 32 8 = k.key5 ∧ (packKeycodes k).extractLsb' 40 8 = k.key6) ∧
  (∀ (w : BitVec 512) (p : List Byte) (i : Nat) (h : i < p.length), p.length ≤ 64 →
    (packPayload w p).extractLsb' (8 * i) 8 = p[i])

/-! ### The end of a run (44_step_and_laws.md section 4) -/

/-- 44_step_and_laws.md section 4 (R186, with R147 and R189, derived there): once the environment offers no further byte,
the run settles: any silent cycles among which, after the first, enough come more than a window after their predecessor end
it settled, from every state of the invariant whose armed deadlines lie no further ahead of the first cycle than a window
and a pause (every deadline a run arms does; from any other state a late enough first cycle). What the stream is, is the
model's choice (log 26); the form of a burst is the spec's decisions D6, D13 and D27 (log 8), a watchdog in every step its
decision D4 (log 6). That a burst ends whatever the device answers is decision D12 (log 9). -/
def Obligations.RunSettlesOnceInputEnds : Prop :=
  ∀ (s : State) (c : Cycle) (cs more : List Cycle),
    Inv s → s.script = c :: (cs ++ more) → (∀ k ∈ c :: cs, Silent k) → (∀ k ∈ more, k.arrivals = []) →
    s.deadline ≤ s.now + c.advance + Config.timeoutTicks → s.dDeadline ≤ s.now + c.advance + Config.pauseTicks →
    4 * s.rx.length + 3 ≤ cs.countP isLate →
    timeFits (s.now + c.advance + (cs.map Cycle.advance).sum) = true →
    ∃ t, Host.Core.run Sys2Proof.core (cs.length + 1) s = .next t ∧ t.script = more ∧ Settled t

/-! ### Calls of the checksum that the source does not define -/

/-- The model's choice (log 25), no rule of the spec (40_checksum.md, R101: such a call "is not defined by the source and does
not occur in the block"): for a payload of another length than `n` the checksum is the same sum modulo 256. -/
def Obligations.ChecksumOfOtherLengths : Prop :=
  ∀ (t n : Byte) (p : List Byte), p.length ≠ n.toNat →
    (checksum t n p).toNat = (t.toNat + n.toNat + (p.map BitVec.toNat).sum) % 256

/-! ### The causes of drops (60_exceptions.md section 1) -/

/-- 60_exceptions.md section 1 (R200; labels and codes are the spec's decision D16, log 12): what a drop's cause says, of
operations and of steps.

An operation that marks a drop is the one the table names for the cause's code. For the codes 5 to 7, drops at dispatch, it
also meets the table's condition, and comes from the frame command, performed alone or by the `CSUM_OK` that dispatches it. For
the codes 1 to 4 the condition is that of the step which selects the operation, not of `exec` (log 18).

So the second half speaks of the steps from a state of the invariant, and gives every cause its condition there. A byte drop is
marked on the byte the table describes, in the stage the table names; a timeout later than the deadline of a frame in flight; a
drop at dispatch on a packet handed over in the same step. That a byte is judged in the stage the watchdog leaves is the spec's
decision D4 (log 6), the window open at equality its decision D5 (log 7), the dispatch in the step of the checksum byte its
decision D24 (log 22), the device's answer read in that step its decision D12 (log 9). -/
def Obligations.DropCauseNamesItsOperation : Prop :=
  (∀ (i : Instr) (s t : State) (c : Cause), exec i s = .next t → .drop c ∈ stepActions s t →
     (causeCode c = 1 → ∃ b, i = .syncMiss b) ∧
     (causeCode c = 2 → ∃ b, i = .lenOver b) ∧
     (causeCode c = 3 → ∃ b, i = .csumBad b) ∧
     (causeCode c = 4 → i = .wdExpire) ∧
     (causeCode c = 5 → ∃ p, (Performs i s (.mouse p) ∧ p.length < 5) ∨ (Performs i s (.keyboard p) ∧ p.length < 7)) ∧
     (causeCode c = 6 → s.devReady = false ∧
       ∃ p, (Performs i s (.mouse p) ∧ 5 ≤ p.length) ∨ (Performs i s (.keyboard p) ∧ 7 ≤ p.length)) ∧
     (causeCode c = 7 → ∃ j, Performs i s j ∧ isReserved j = true) ∧
     1 ≤ causeCode c ∧ causeCode c ≤ 7) ∧
  ∀ (s t : State) (c : Cause), Inv s → step s = .next t → .drop c ∈ stepActions s t →
    (c = .badMagic → ∃ b, b ≠ 0xAA ∧ (opened s).rx.head? = some b ∧ s.dstage = .idle ∧
      (s.stage = .awaitingMagic ∨ s.deadline < (opened s).now)) ∧
    (c = .oversize → ∃ b, 65 ≤ b.toNat ∧ (opened s).rx.head? = some b ∧ s.dstage = .idle ∧
      s.stage = .awaitingLength ∧ (opened s).now ≤ s.deadline) ∧
    (c = .badChecksum → ∃ b, b ≠ checksum s.ptype s.plen (s.buf.readList s.plen.toNat) ∧
      (opened s).rx.head? = some b ∧ s.dstage = .idle ∧ s.stage = .awaitingChecksum ∧ (opened s).now ≤ s.deadline) ∧
    (c = .timeout → s.stage ≠ .awaitingMagic ∧ s.deadline < (opened s).now) ∧
    (c = .undersized → ∃ ty p, .deliver ty p.length p ∈ stepActions s t ∧
      (ty = 0x01 ∧ p.length < 5 ∨ ty = 0x02 ∧ p.length < 7)) ∧
    (c = .notReady → (opened s).devReady = false ∧ ∃ ty p, .deliver ty p.length p ∈ stepActions s t ∧
      (ty = 0x01 ∧ 5 ≤ p.length ∨ ty = 0x02 ∧ 7 ≤ p.length)) ∧
    (c = .reserved → ∃ ty p, .deliver ty p.length p ∈ stepActions s t ∧ ty ≠ 0x01 ∧ ty ≠ 0x02)
end

