-- ==== Sys2Proof/Laws/State.lean ====
section
/-! SUPPORT. What each named update does to each field of State: one lemma per field per update, so that no later proof
unfolds a record update. -/

namespace Sys2Proof.Laws

open Sys2Proof.Machine

/-! ### `emit` -/

@[simp] theorem emit_stage (a : Action) (s : State) : (emit a s).stage = s.stage := rfl
@[simp] theorem emit_ptype (a : Action) (s : State) : (emit a s).ptype = s.ptype := rfl
@[simp] theorem emit_plen (a : Action) (s : State) : (emit a s).plen = s.plen := rfl
@[simp] theorem emit_fill (a : Action) (s : State) : (emit a s).fill = s.fill := rfl
@[simp] theorem emit_buf (a : Action) (s : State) : (emit a s).buf = s.buf := rfl
@[simp] theorem emit_deadline (a : Action) (s : State) : (emit a s).deadline = s.deadline := rfl
@[simp] theorem emit_dstage (a : Action) (s : State) : (emit a s).dstage = s.dstage := rfl
@[simp] theorem emit_dSent (a : Action) (s : State) : (emit a s).dSent = s.dSent := rfl
@[simp] theorem emit_dDeadline (a : Action) (s : State) : (emit a s).dDeadline = s.dDeadline := rfl
@[simp] theorem emit_dButtons (a : Action) (s : State) : (emit a s).dButtons = s.dButtons := rfl
@[simp] theorem emit_dX (a : Action) (s : State) : (emit a s).dX = s.dX := rfl
@[simp] theorem emit_dY (a : Action) (s : State) : (emit a s).dY = s.dY := rfl
@[simp] theorem emit_now (a : Action) (s : State) : (emit a s).now = s.now := rfl
@[simp] theorem emit_devReady (a : Action) (s : State) : (emit a s).devReady = s.devReady := rfl
@[simp] theorem emit_devSuspended (a : Action) (s : State) : (emit a s).devSuspended = s.devSuspended := rfl
@[simp] theorem emit_rx (a : Action) (s : State) : (emit a s).rx = s.rx := rfl
@[simp] theorem emit_script (a : Action) (s : State) : (emit a s).script = s.script := rfl
@[simp] theorem emit_cycles (a : Action) (s : State) : (emit a s).cycles = s.cycles := rfl
@[simp] theorem emit_trace (a : Action) (s : State) : (emit a s).trace = s.trace ++ [(s.now, a)] := rfl

/-! ### `dropMark` -/

@[simp] theorem dropMark_stage (c : Cause) (s : State) : (dropMark c s).stage = s.stage := rfl
@[simp] theorem dropMark_ptype (c : Cause) (s : State) : (dropMark c s).ptype = s.ptype := rfl
@[simp] theorem dropMark_plen (c : Cause) (s : State) : (dropMark c s).plen = s.plen := rfl
@[simp] theorem dropMark_fill (c : Cause) (s : State) : (dropMark c s).fill = s.fill := rfl
@[simp] theorem dropMark_buf (c : Cause) (s : State) : (dropMark c s).buf = s.buf := rfl
@[simp] theorem dropMark_deadline (c : Cause) (s : State) : (dropMark c s).deadline = s.deadline := rfl
@[simp] theorem dropMark_dstage (c : Cause) (s : State) : (dropMark c s).dstage = s.dstage := rfl
@[simp] theorem dropMark_dSent (c : Cause) (s : State) : (dropMark c s).dSent = s.dSent := rfl
@[simp] theorem dropMark_dDeadline (c : Cause) (s : State) : (dropMark c s).dDeadline = s.dDeadline := rfl
@[simp] theorem dropMark_dButtons (c : Cause) (s : State) : (dropMark c s).dButtons = s.dButtons := rfl
@[simp] theorem dropMark_dX (c : Cause) (s : State) : (dropMark c s).dX = s.dX := rfl
@[simp] theorem dropMark_dY (c : Cause) (s : State) : (dropMark c s).dY = s.dY := rfl
@[simp] theorem dropMark_now (c : Cause) (s : State) : (dropMark c s).now = s.now := rfl
@[simp] theorem dropMark_devReady (c : Cause) (s : State) : (dropMark c s).devReady = s.devReady := rfl
@[simp] theorem dropMark_devSuspended (c : Cause) (s : State) : (dropMark c s).devSuspended = s.devSuspended := rfl
@[simp] theorem dropMark_rx (c : Cause) (s : State) : (dropMark c s).rx = s.rx := rfl
@[simp] theorem dropMark_script (c : Cause) (s : State) : (dropMark c s).script = s.script := rfl
@[simp] theorem dropMark_cycles (c : Cause) (s : State) : (dropMark c s).cycles = s.cycles := rfl
@[simp] theorem dropMark_trace (c : Cause) (s : State) : (dropMark c s).trace = s.trace ++ [(s.now, .drop c)] := rfl

/-! ### `armDeadline` -/

@[simp] theorem armDeadline_stage (s : State) : (armDeadline s).stage = s.stage := rfl
@[simp] theorem armDeadline_ptype (s : State) : (armDeadline s).ptype = s.ptype := rfl
@[simp] theorem armDeadline_plen (s : State) : (armDeadline s).plen = s.plen := rfl
@[simp] theorem armDeadline_fill (s : State) : (armDeadline s).fill = s.fill := rfl
@[simp] theorem armDeadline_buf (s : State) : (armDeadline s).buf = s.buf := rfl
@[simp] theorem armDeadline_deadline (s : State) : (armDeadline s).deadline = s.now + Config.timeoutTicks := rfl
@[simp] theorem armDeadline_dstage (s : State) : (armDeadline s).dstage = s.dstage := rfl
@[simp] theorem armDeadline_dSent (s : State) : (armDeadline s).dSent = s.dSent := rfl
@[simp] theorem armDeadline_dDeadline (s : State) : (armDeadline s).dDeadline = s.dDeadline := rfl
@[simp] theorem armDeadline_dButtons (s : State) : (armDeadline s).dButtons = s.dButtons := rfl
@[simp] theorem armDeadline_dX (s : State) : (armDeadline s).dX = s.dX := rfl
@[simp] theorem armDeadline_dY (s : State) : (armDeadline s).dY = s.dY := rfl
@[simp] theorem armDeadline_now (s : State) : (armDeadline s).now = s.now := rfl
@[simp] theorem armDeadline_devReady (s : State) : (armDeadline s).devReady = s.devReady := rfl
@[simp] theorem armDeadline_devSuspended (s : State) : (armDeadline s).devSuspended = s.devSuspended := rfl
@[simp] theorem armDeadline_rx (s : State) : (armDeadline s).rx = s.rx := rfl
@[simp] theorem armDeadline_script (s : State) : (armDeadline s).script = s.script := rfl
@[simp] theorem armDeadline_cycles (s : State) : (armDeadline s).cycles = s.cycles := rfl
@[simp] theorem armDeadline_trace (s : State) : (armDeadline s).trace = s.trace := rfl

/-! ### `frameReset` -/

@[simp] theorem frameReset_stage (s : State) : (frameReset s).stage = .awaitingMagic := rfl
@[simp] theorem frameReset_ptype (s : State) : (frameReset s).ptype = 0 := rfl
@[simp] theorem frameReset_plen (s : State) : (frameReset s).plen = 0 := rfl
@[simp] theorem frameReset_fill (s : State) : (frameReset s).fill = 0 := rfl
@[simp] theorem frameReset_buf (s : State) : (frameReset s).buf = s.buf := rfl
@[simp] theorem frameReset_deadline (s : State) : (frameReset s).deadline = s.deadline := rfl
@[simp] theorem frameReset_dstage (s : State) : (frameReset s).dstage = s.dstage := rfl
@[simp] theorem frameReset_dSent (s : State) : (frameReset s).dSent = s.dSent := rfl
@[simp] theorem frameReset_dDeadline (s : State) : (frameReset s).dDeadline = s.dDeadline := rfl
@[simp] theorem frameReset_dButtons (s : State) : (frameReset s).dButtons = s.dButtons := rfl
@[simp] theorem frameReset_dX (s : State) : (frameReset s).dX = s.dX := rfl
@[simp] theorem frameReset_dY (s : State) : (frameReset s).dY = s.dY := rfl
@[simp] theorem frameReset_now (s : State) : (frameReset s).now = s.now := rfl
@[simp] theorem frameReset_devReady (s : State) : (frameReset s).devReady = s.devReady := rfl
@[simp] theorem frameReset_devSuspended (s : State) : (frameReset s).devSuspended = s.devSuspended := rfl
@[simp] theorem frameReset_rx (s : State) : (frameReset s).rx = s.rx := rfl
@[simp] theorem frameReset_script (s : State) : (frameReset s).script = s.script := rfl
@[simp] theorem frameReset_cycles (s : State) : (frameReset s).cycles = s.cycles := rfl
@[simp] theorem frameReset_trace (s : State) : (frameReset s).trace = s.trace := rfl

/-! ### `parserDrop` -/

@[simp] theorem parserDrop_stage (c : Cause) (s : State) : (parserDrop c s).stage = .awaitingMagic := rfl
@[simp] theorem parserDrop_ptype (c : Cause) (s : State) : (parserDrop c s).ptype = 0 := rfl
@[simp] theorem parserDrop_plen (c : Cause) (s : State) : (parserDrop c s).plen = 0 := rfl
@[simp] theorem parserDrop_fill (c : Cause) (s : State) : (parserDrop c s).fill = 0 := rfl
@[simp] theorem parserDrop_buf (c : Cause) (s : State) : (parserDrop c s).buf = s.buf := rfl
@[simp] theorem parserDrop_deadline (c : Cause) (s : State) : (parserDrop c s).deadline = s.deadline := rfl
@[simp] theorem parserDrop_dstage (c : Cause) (s : State) : (parserDrop c s).dstage = s.dstage := rfl
@[simp] theorem parserDrop_dSent (c : Cause) (s : State) : (parserDrop c s).dSent = s.dSent := rfl
@[simp] theorem parserDrop_dDeadline (c : Cause) (s : State) : (parserDrop c s).dDeadline = s.dDeadline := rfl
@[simp] theorem parserDrop_dButtons (c : Cause) (s : State) : (parserDrop c s).dButtons = s.dButtons := rfl
@[simp] theorem parserDrop_dX (c : Cause) (s : State) : (parserDrop c s).dX = s.dX := rfl
@[simp] theorem parserDrop_dY (c : Cause) (s : State) : (parserDrop c s).dY = s.dY := rfl
@[simp] theorem parserDrop_now (c : Cause) (s : State) : (parserDrop c s).now = s.now := rfl
@[simp] theorem parserDrop_devReady (c : Cause) (s : State) : (parserDrop c s).devReady = s.devReady := rfl
@[simp] theorem parserDrop_devSuspended (c : Cause) (s : State) : (parserDrop c s).devSuspended = s.devSuspended := rfl
@[simp] theorem parserDrop_rx (c : Cause) (s : State) : (parserDrop c s).rx = s.rx := rfl
@[simp] theorem parserDrop_script (c : Cause) (s : State) : (parserDrop c s).script = s.script := rfl
@[simp] theorem parserDrop_cycles (c : Cause) (s : State) : (parserDrop c s).cycles = s.cycles := rfl
@[simp] theorem parserDrop_trace (c : Cause) (s : State) : (parserDrop c s).trace = s.trace ++ [(s.now, .drop c)] := rfl

/-! ### `startBurst` -/

@[simp] theorem startBurst_stage (b : Byte) (x y : Half) (s : State) : (startBurst b x y s).stage = s.stage := rfl
@[simp] theorem startBurst_ptype (b : Byte) (x y : Half) (s : State) : (startBurst b x y s).ptype = s.ptype := rfl
@[simp] theorem startBurst_plen (b : Byte) (x y : Half) (s : State) : (startBurst b x y s).plen = s.plen := rfl
@[simp] theorem startBurst_fill (b : Byte) (x y : Half) (s : State) : (startBurst b x y s).fill = s.fill := rfl
@[simp] theorem startBurst_buf (b : Byte) (x y : Half) (s : State) : (startBurst b x y s).buf = s.buf := rfl
@[simp] theorem startBurst_deadline (b : Byte) (x y : Half) (s : State) : (startBurst b x y s).deadline = s.deadline := rfl
@[simp] theorem startBurst_dstage (b : Byte) (x y : Half) (s : State) : (startBurst b x y s).dstage = .burst := rfl
@[simp] theorem startBurst_dSent (b : Byte) (x y : Half) (s : State) : (startBurst b x y s).dSent = 1 := rfl
@[simp] theorem startBurst_dDeadline (b : Byte) (x y : Half) (s : State) : (startBurst b x y s).dDeadline = s.now + Config.pauseTicks := rfl
@[simp] theorem startBurst_dButtons (b : Byte) (x y : Half) (s : State) : (startBurst b x y s).dButtons = b := rfl
@[simp] theorem startBurst_dX (b : Byte) (x y : Half) (s : State) : (startBurst b x y s).dX = x := rfl
@[simp] theorem startBurst_dY (b : Byte) (x y : Half) (s : State) : (startBurst b x y s).dY = y := rfl
@[simp] theorem startBurst_now (b : Byte) (x y : Half) (s : State) : (startBurst b x y s).now = s.now := rfl
@[simp] theorem startBurst_devReady (b : Byte) (x y : Half) (s : State) : (startBurst b x y s).devReady = s.devReady := rfl
@[simp] theorem startBurst_devSuspended (b : Byte) (x y : Half) (s : State) : (startBurst b x y s).devSuspended = s.devSuspended := rfl
@[simp] theorem startBurst_rx (b : Byte) (x y : Half) (s : State) : (startBurst b x y s).rx = s.rx := rfl
@[simp] theorem startBurst_script (b : Byte) (x y : Half) (s : State) : (startBurst b x y s).script = s.script := rfl
@[simp] theorem startBurst_cycles (b : Byte) (x y : Half) (s : State) : (startBurst b x y s).cycles = s.cycles := rfl
@[simp] theorem startBurst_trace (b : Byte) (x y : Half) (s : State) : (startBurst b x y s).trace = s.trace := rfl

/-! ### `continueBurst` -/

@[simp] theorem continueBurst_stage (s : State) : (continueBurst s).stage = s.stage := rfl
@[simp] theorem continueBurst_ptype (s : State) : (continueBurst s).ptype = s.ptype := rfl
@[simp] theorem continueBurst_plen (s : State) : (continueBurst s).plen = s.plen := rfl
@[simp] theorem continueBurst_fill (s : State) : (continueBurst s).fill = s.fill := rfl
@[simp] theorem continueBurst_buf (s : State) : (continueBurst s).buf = s.buf := rfl
@[simp] theorem continueBurst_deadline (s : State) : (continueBurst s).deadline = s.deadline := rfl
@[simp] theorem continueBurst_dstage (s : State) : (continueBurst s).dstage = s.dstage := rfl
@[simp] theorem continueBurst_dSent (s : State) : (continueBurst s).dSent = s.dSent + 1 := rfl
@[simp] theorem continueBurst_dDeadline (s : State) : (continueBurst s).dDeadline = s.now + Config.pauseTicks := rfl
@[simp] theorem continueBurst_dButtons (s : State) : (continueBurst s).dButtons = s.dButtons := rfl
@[simp] theorem continueBurst_dX (s : State) : (continueBurst s).dX = s.dX := rfl
@[simp] theorem continueBurst_dY (s : State) : (continueBurst s).dY = s.dY := rfl
@[simp] theorem continueBurst_now (s : State) : (continueBurst s).now = s.now := rfl
@[simp] theorem continueBurst_devReady (s : State) : (continueBurst s).devReady = s.devReady := rfl
@[simp] theorem continueBurst_devSuspended (s : State) : (continueBurst s).devSuspended = s.devSuspended := rfl
@[simp] theorem continueBurst_rx (s : State) : (continueBurst s).rx = s.rx := rfl
@[simp] theorem continueBurst_script (s : State) : (continueBurst s).script = s.script := rfl
@[simp] theorem continueBurst_cycles (s : State) : (continueBurst s).cycles = s.cycles := rfl
@[simp] theorem continueBurst_trace (s : State) : (continueBurst s).trace = s.trace := rfl

/-! ### `endBurst` -/

@[simp] theorem endBurst_stage (s : State) : (endBurst s).stage = s.stage := rfl
@[simp] theorem endBurst_ptype (s : State) : (endBurst s).ptype = s.ptype := rfl
@[simp] theorem endBurst_plen (s : State) : (endBurst s).plen = s.plen := rfl
@[simp] theorem endBurst_fill (s : State) : (endBurst s).fill = s.fill := rfl
@[simp] theorem endBurst_buf (s : State) : (endBurst s).buf = s.buf := rfl
@[simp] theorem endBurst_deadline (s : State) : (endBurst s).deadline = s.deadline := rfl
@[simp] theorem endBurst_dstage (s : State) : (endBurst s).dstage = .idle := rfl
@[simp] theorem endBurst_dSent (s : State) : (endBurst s).dSent = 0 := rfl
@[simp] theorem endBurst_dDeadline (s : State) : (endBurst s).dDeadline = s.dDeadline := rfl
@[simp] theorem endBurst_dButtons (s : State) : (endBurst s).dButtons = s.dButtons := rfl
@[simp] theorem endBurst_dX (s : State) : (endBurst s).dX = s.dX := rfl
@[simp] theorem endBurst_dY (s : State) : (endBurst s).dY = s.dY := rfl
@[simp] theorem endBurst_now (s : State) : (endBurst s).now = s.now := rfl
@[simp] theorem endBurst_devReady (s : State) : (endBurst s).devReady = s.devReady := rfl
@[simp] theorem endBurst_devSuspended (s : State) : (endBurst s).devSuspended = s.devSuspended := rfl
@[simp] theorem endBurst_rx (s : State) : (endBurst s).rx = s.rx := rfl
@[simp] theorem endBurst_script (s : State) : (endBurst s).script = s.script := rfl
@[simp] theorem endBurst_cycles (s : State) : (endBurst s).cycles = s.cycles := rfl
@[simp] theorem endBurst_trace (s : State) : (endBurst s).trace = s.trace := rfl

/-! ### `openCycle` -/

@[simp] theorem openCycle_stage (c : Cycle) (s : State) : (openCycle c s).stage = s.stage := rfl
@[simp] theorem openCycle_ptype (c : Cycle) (s : State) : (openCycle c s).ptype = s.ptype := rfl
@[simp] theorem openCycle_plen (c : Cycle) (s : State) : (openCycle c s).plen = s.plen := rfl
@[simp] theorem openCycle_fill (c : Cycle) (s : State) : (openCycle c s).fill = s.fill := rfl
@[simp] theorem openCycle_buf (c : Cycle) (s : State) : (openCycle c s).buf = s.buf := rfl
@[simp] theorem openCycle_deadline (c : Cycle) (s : State) : (openCycle c s).deadline = s.deadline := rfl
@[simp] theorem openCycle_dstage (c : Cycle) (s : State) : (openCycle c s).dstage = s.dstage := rfl
@[simp] theorem openCycle_dSent (c : Cycle) (s : State) : (openCycle c s).dSent = s.dSent := rfl
@[simp] theorem openCycle_dDeadline (c : Cycle) (s : State) : (openCycle c s).dDeadline = s.dDeadline := rfl
@[simp] theorem openCycle_dButtons (c : Cycle) (s : State) : (openCycle c s).dButtons = s.dButtons := rfl
@[simp] theorem openCycle_dX (c : Cycle) (s : State) : (openCycle c s).dX = s.dX := rfl
@[simp] theorem openCycle_dY (c : Cycle) (s : State) : (openCycle c s).dY = s.dY := rfl
@[simp] theorem openCycle_now (c : Cycle) (s : State) : (openCycle c s).now = s.now + c.advance := rfl
@[simp] theorem openCycle_devReady (c : Cycle) (s : State) : (openCycle c s).devReady = c.ready := rfl
@[simp] theorem openCycle_devSuspended (c : Cycle) (s : State) : (openCycle c s).devSuspended = c.suspended := rfl
@[simp] theorem openCycle_rx (c : Cycle) (s : State) : (openCycle c s).rx = s.rx ++ c.arrivals := rfl
@[simp] theorem openCycle_script (c : Cycle) (s : State) : (openCycle c s).script = s.script.tail := rfl
@[simp] theorem openCycle_cycles (c : Cycle) (s : State) : (openCycle c s).cycles = s.cycles + 1 := rfl
@[simp] theorem openCycle_trace (c : Cycle) (s : State) : (openCycle c s).trace = s.trace := rfl

/-! ### `resetRegisters` -/

@[simp] theorem resetRegisters_stage (s : State) : (resetRegisters s).stage = .awaitingMagic := rfl
@[simp] theorem resetRegisters_ptype (s : State) : (resetRegisters s).ptype = 0 := rfl
@[simp] theorem resetRegisters_plen (s : State) : (resetRegisters s).plen = 0 := rfl
@[simp] theorem resetRegisters_fill (s : State) : (resetRegisters s).fill = 0 := rfl
@[simp] theorem resetRegisters_buf (s : State) : (resetRegisters s).buf = s.buf := rfl
@[simp] theorem resetRegisters_deadline (s : State) : (resetRegisters s).deadline = s.deadline := rfl
@[simp] theorem resetRegisters_dstage (s : State) : (resetRegisters s).dstage = .idle := rfl
@[simp] theorem resetRegisters_dSent (s : State) : (resetRegisters s).dSent = 0 := rfl
@[simp] theorem resetRegisters_dDeadline (s : State) : (resetRegisters s).dDeadline = s.dDeadline := rfl
@[simp] theorem resetRegisters_dButtons (s : State) : (resetRegisters s).dButtons = s.dButtons := rfl
@[simp] theorem resetRegisters_dX (s : State) : (resetRegisters s).dX = s.dX := rfl
@[simp] theorem resetRegisters_dY (s : State) : (resetRegisters s).dY = s.dY := rfl
@[simp] theorem resetRegisters_now (s : State) : (resetRegisters s).now = s.now := rfl
@[simp] theorem resetRegisters_devReady (s : State) : (resetRegisters s).devReady = s.devReady := rfl
@[simp] theorem resetRegisters_devSuspended (s : State) : (resetRegisters s).devSuspended = s.devSuspended := rfl
@[simp] theorem resetRegisters_rx (s : State) : (resetRegisters s).rx = s.rx := rfl
@[simp] theorem resetRegisters_script (s : State) : (resetRegisters s).script = s.script := rfl
@[simp] theorem resetRegisters_cycles (s : State) : (resetRegisters s).cycles = s.cycles := rfl
@[simp] theorem resetRegisters_trace (s : State) : (resetRegisters s).trace = s.trace := rfl

/-! ### `consume` -/

@[simp] theorem consume_stage (s : State) : (consume s).stage = s.stage := rfl
@[simp] theorem consume_ptype (s : State) : (consume s).ptype = s.ptype := rfl
@[simp] theorem consume_plen (s : State) : (consume s).plen = s.plen := rfl
@[simp] theorem consume_fill (s : State) : (consume s).fill = s.fill := rfl
@[simp] theorem consume_buf (s : State) : (consume s).buf = s.buf := rfl
@[simp] theorem consume_deadline (s : State) : (consume s).deadline = s.deadline := rfl
@[simp] theorem consume_dstage (s : State) : (consume s).dstage = s.dstage := rfl
@[simp] theorem consume_dSent (s : State) : (consume s).dSent = s.dSent := rfl
@[simp] theorem consume_dDeadline (s : State) : (consume s).dDeadline = s.dDeadline := rfl
@[simp] theorem consume_dButtons (s : State) : (consume s).dButtons = s.dButtons := rfl
@[simp] theorem consume_dX (s : State) : (consume s).dX = s.dX := rfl
@[simp] theorem consume_dY (s : State) : (consume s).dY = s.dY := rfl
@[simp] theorem consume_now (s : State) : (consume s).now = s.now := rfl
@[simp] theorem consume_devReady (s : State) : (consume s).devReady = s.devReady := rfl
@[simp] theorem consume_devSuspended (s : State) : (consume s).devSuspended = s.devSuspended := rfl
@[simp] theorem consume_rx (s : State) : (consume s).rx = s.rx.tail := rfl
@[simp] theorem consume_script (s : State) : (consume s).script = s.script := rfl
@[simp] theorem consume_cycles (s : State) : (consume s).cycles = s.cycles := rfl
@[simp] theorem consume_trace (s : State) : (consume s).trace = s.trace := rfl

/-! ### `wake` -/

@[simp] theorem wake_stage (s : State) : (wake s).stage = s.stage := by unfold wake; split <;> rfl
@[simp] theorem wake_ptype (s : State) : (wake s).ptype = s.ptype := by unfold wake; split <;> rfl
@[simp] theorem wake_plen (s : State) : (wake s).plen = s.plen := by unfold wake; split <;> rfl
@[simp] theorem wake_fill (s : State) : (wake s).fill = s.fill := by unfold wake; split <;> rfl
@[simp] theorem wake_buf (s : State) : (wake s).buf = s.buf := by unfold wake; split <;> rfl
@[simp] theorem wake_deadline (s : State) : (wake s).deadline = s.deadline := by unfold wake; split <;> rfl
@[simp] theorem wake_dstage (s : State) : (wake s).dstage = s.dstage := by unfold wake; split <;> rfl
@[simp] theorem wake_dSent (s : State) : (wake s).dSent = s.dSent := by unfold wake; split <;> rfl
@[simp] theorem wake_dDeadline (s : State) : (wake s).dDeadline = s.dDeadline := by unfold wake; split <;> rfl
@[simp] theorem wake_dButtons (s : State) : (wake s).dButtons = s.dButtons := by unfold wake; split <;> rfl
@[simp] theorem wake_dX (s : State) : (wake s).dX = s.dX := by unfold wake; split <;> rfl
@[simp] theorem wake_dY (s : State) : (wake s).dY = s.dY := by unfold wake; split <;> rfl
@[simp] theorem wake_now (s : State) : (wake s).now = s.now := by unfold wake; split <;> rfl
@[simp] theorem wake_devReady (s : State) : (wake s).devReady = s.devReady := by unfold wake; split <;> rfl
@[simp] theorem wake_devSuspended (s : State) : (wake s).devSuspended = s.devSuspended := by unfold wake; split <;> rfl
@[simp] theorem wake_rx (s : State) : (wake s).rx = s.rx := by unfold wake; split <;> rfl
@[simp] theorem wake_script (s : State) : (wake s).script = s.script := by unfold wake; split <;> rfl
@[simp] theorem wake_cycles (s : State) : (wake s).cycles = s.cycles := by unfold wake; split <;> rfl
theorem wake_trace (s : State) :
    (wake s).trace = s.trace ++ (if s.devSuspended then [(s.now, Action.wakeReq)] else []) := by
  unfold wake; split <;> simp

end Sys2Proof.Laws
end

