-- ==== Sys2Proof/Laws/Memory.lean ====
section
/-! SUPPORT. The laws of the accumulation buffer: read after write, and the canonical form kept by every operation. -/

namespace Sys2Proof.Laws

open Sys2Proof.Machine

/-- An index below the lower bound of a canonical list is unlisted. -/
theorem read_below {lo a : Nat} (h : a < lo) :
    ∀ {m : Memory}, Memory.wfFrom lo m = true → m.read a = Memory.unwritten
  | [], _ => rfl
  | (k, w) :: m, hw => by
    simp only [Memory.wfFrom, Bool.and_eq_true, decide_eq_true_eq] at hw
    simp only [Memory.read, if_neg (show k ≠ a by omega)]
    exact read_below (by omega) hw.2

/-- The canonical form from a bound gives it from any lower bound. -/
theorem wfFrom_mono {lo lo' : Nat} (h : lo' ≤ lo) {m : Memory} (hm : Memory.wfFrom lo m = true) :
    Memory.wfFrom lo' m = true := by
  cases m with
  | nil => rfl
  | cons e m =>
    simp only [Memory.wfFrom, Bool.and_eq_true, decide_eq_true_eq] at hm ⊢
    exact ⟨⟨⟨by omega, hm.1.1.2⟩, hm.1.2⟩, hm.2⟩

/-- Putting a cell in front of a canonical list keeps the form. -/
theorem wfFrom_cell {lo a : Nat} {v : Byte} {m : Memory} (hlo : lo ≤ a) (ha : a < Config.bufCap)
    (hm : Memory.wfFrom (a + 1) m = true) : Memory.wfFrom lo (Memory.cell a v m) = true := by
  unfold Memory.cell
  split
  · exact wfFrom_mono (by omega) hm
  · rename_i hv
    simp [Memory.wfFrom, hlo, ha, hv, hm]

/-- A cell in front reads as its value, if the rest lists nothing at its index. -/
theorem read_cell_same {a : Nat} {v : Byte} {m : Memory} (hm : m.read a = Memory.unwritten) :
    (Memory.cell a v m).read a = v := by
  unfold Memory.cell
  split
  · rename_i hv; rw [hm, hv]
  · simp [Memory.read]

/-- A cell in front leaves every other index as it was. -/
theorem read_cell_other {a b : Nat} {v : Byte} {m : Memory} (h : b ≠ a) :
    (Memory.cell a v m).read b = m.read b := by
  unfold Memory.cell
  split
  · rfl
  · simp [Memory.read, Ne.symm h]

theorem wfFrom_write {a : Nat} {v : Byte} (ha : a < Config.bufCap) :
    ∀ {lo : Nat} {m : Memory}, lo ≤ a → Memory.wfFrom lo m = true → Memory.wfFrom lo (m.write a v) = true
  | lo, [], hlo, _ => wfFrom_cell hlo ha rfl
  | lo, (k, w) :: m, hlo, hm => by
    have hm' := hm
    simp only [Memory.wfFrom, Bool.and_eq_true, decide_eq_true_eq] at hm
    unfold Memory.write
    split
    · rename_i hk
      simp only [Memory.wfFrom, Bool.and_eq_true, decide_eq_true_eq]
      exact ⟨hm.1, wfFrom_write ha (by omega) hm.2⟩
    · split
      · rename_i hk; subst hk; exact wfFrom_cell hlo ha hm.2
      · refine wfFrom_cell hlo ha ?_
        simp only [Memory.wfFrom, Bool.and_eq_true, decide_eq_true_eq]
        exact ⟨⟨⟨by omega, hm.1.1.2⟩, hm.1.2⟩, hm.2⟩

/-- A write inside the buffer keeps the canonical form. -/
theorem wf_write {m : Memory} {a : Nat} {v : Byte} (ha : a < Config.bufCap) (hm : m.wf = true) :
    (m.write a v).wf = true :=
  wfFrom_write ha (Nat.zero_le a) hm

theorem readFrom_write_same {a : Nat} {v : Byte} :
    ∀ {lo : Nat} {m : Memory}, lo ≤ a → Memory.wfFrom lo m = true → (m.write a v).read a = v
  | _, [], _, _ => read_cell_same rfl
  | lo, (k, w) :: m, hlo, hm => by
    simp only [Memory.wfFrom, Bool.and_eq_true, decide_eq_true_eq] at hm
    unfold Memory.write
    split
    · rename_i hk
      simp only [Memory.read, if_neg (show k ≠ a by omega)]
      exact readFrom_write_same (by omega) hm.2
    · split
      · rename_i hk; subst hk; exact read_cell_same (read_below (Nat.lt_succ_self k) hm.2)
      · refine read_cell_same ?_
        simp only [Memory.read, if_neg (show k ≠ a by omega)]
        exact read_below (by omega) hm.2

/-- Reading back the index written gives the byte written. -/
theorem read_write_same {m : Memory} {a : Nat} {v : Byte} (hm : m.wf = true) : (m.write a v).read a = v :=
  readFrom_write_same (Nat.zero_le a) hm

/-- A write leaves every other index as it was. -/
theorem read_write_other {a b : Nat} {v : Byte} (h : b ≠ a) : ∀ {m : Memory}, (m.write a v).read b = m.read b
  | [] => read_cell_other h
  | (k, w) :: m => by
    unfold Memory.write
    split
    · simp only [Memory.read]
      split
      · rfl
      · exact read_write_other h
    · split
      · rename_i hk; subst hk; rw [read_cell_other h]; simp [Memory.read, Ne.symm h]
      · exact read_cell_other h

theorem reset_buf_wf : State.reset.buf.wf = true := rfl

@[simp] theorem length_readList (m : Memory) (n : Nat) : (m.readList n).length = n := by simp [Memory.readList]

/-- Two buffers that agree below `n` read alike there. -/
theorem readList_congr {m m' : Memory} {n : Nat} (h : ∀ a, a < n → m'.read a = m.read a) :
    m'.readList n = m.readList n := by
  unfold Memory.readList
  exact List.map_congr_left fun a ha => h a (List.mem_range.1 ha)

/-- One more byte at the end. -/
theorem readList_succ (m : Memory) (n : Nat) : m.readList (n + 1) = m.readList n ++ [m.read n] := by
  simp [Memory.readList, List.range_succ]

/-- A write at index `n` extends the bytes read by the byte written. -/
theorem readList_write {m : Memory} {n : Nat} {v : Byte} (hm : m.wf = true) :
    (m.write n v).readList (n + 1) = m.readList n ++ [v] := by
  rw [readList_succ, read_write_same hm]
  congr 1
  exact readList_congr fun a ha => read_write_other (by omega)

end Sys2Proof.Laws
end

