-- ==== Sys2Proof/Laws/Ops.lean ====
section
/-! SUPPORT. One lemma per shared operation that says everything it can do, for proofs to cite instead of unfolding it. -/

namespace Sys2Proof.Laws

open Sys2Proof.Machine

theorem bufRead_eq (n : Nat) (s : State) :
    bufRead n s = if n ≤ 64 then some (s.buf.readList n) else none := rfl

theorem bufRead_of_le {n : Nat} {s : State} (h : n ≤ 64) : bufRead n s = some (s.buf.readList n) := by
  simp [bufRead_eq, h]

theorem appendByte_eq (b : Byte) (s : State) :
    appendByte b s =
      if s.fill.toNat < 64 then some { s with buf := s.buf.write s.fill.toNat b, fill := s.fill + 1 } else none := rfl

/-- The fill count after an append inside the buffer: no overflow of its 7 bits (R24). -/
theorem fill_succ {f : BitVec 7} (h : f.toNat < 64) : (f + 1).toNat = f.toNat + 1 := by
  simp [BitVec.toNat_add]; omega

theorem exec_pay (b : Byte) {s : State} (h : s.fill.toNat < 64) :
    exec (.pay b) s = .next { s with buf := s.buf.write s.fill.toNat b, fill := s.fill + 1 } := by
  simp [exec, execPay, appendByte_eq, h, orBufferFault]

theorem exec_payLast (b : Byte) {s : State} (h : s.fill.toNat < 64) :
    exec (.payLast b) s =
      .next { s with buf := s.buf.write s.fill.toNat b, fill := s.fill + 1, stage := .awaitingChecksum } := by
  simp [exec, execPayLast, appendByte_eq, h, orBufferFault]

/-- `MOUSE` (R156): undersized, not ready, or the first emission of a burst. -/
theorem execMouse_cases (p : List Byte) (s : State) :
    (p.length < 5 ∧ execMouse p s = .next (dropMark .undersized s)) ∨
    (5 ≤ p.length ∧ s.devReady = false ∧ execMouse p s = .next (dropMark .notReady s)) ∨
    (5 ≤ p.length ∧ s.devReady = true ∧
      execMouse p s = .next (startBurst (mouseButtons p) (mouseX p) (mouseY p)
        (emit (.mouseReport (mouseButtons p) (mouseX p) (mouseY p)) s))) := by
  unfold execMouse Config.mouseMinLen
  by_cases h : p.length < 5
  · simp [h]
  · cases hr : s.devReady <;> simp [h, Nat.le_of_not_lt h]

/-- `KEYBOARD` (R159): undersized, not ready, or one report. -/
theorem execKeyboard_cases (p : List Byte) (s : State) :
    (p.length < 7 ∧ execKeyboard p s = .next (dropMark .undersized s)) ∨
    (7 ≤ p.length ∧ s.devReady = false ∧ execKeyboard p s = .next (dropMark .notReady s)) ∨
    (7 ≤ p.length ∧ s.devReady = true ∧
      execKeyboard p s = .next (emit (.kbdReport (kbdModifiers p) (kbdKeycodes p)) s)) := by
  unfold execKeyboard Config.kbdMinLen
  by_cases h : p.length < 7
  · simp [h]
  · cases hr : s.devReady <;> simp [h, Nat.le_of_not_lt h]

/-- The branch on the type (R154). -/
theorem runCommand_cases (t : Byte) (p : List Byte) (s : State) :
    (t = 1 ∧ runCommand t p s = execMouse p s) ∨ (t = 2 ∧ runCommand t p s = execKeyboard p s) ∨
    (t ≠ 1 ∧ t ≠ 2 ∧ runCommand t p s = .next (dropMark .reserved s)) := by
  by_cases h1 : t = 1
  · exact .inl ⟨h1, by simp [runCommand, Config.typeMouse, h1]⟩
  by_cases h2 : t = 2
  · exact .inr (.inl ⟨h2, by simp [runCommand, Config.typeMouse, Config.typeKeyboard, h2]⟩)
  refine .inr (.inr ⟨h1, h2, ?_⟩)
  unfold runCommand Config.typeMouse Config.typeKeyboard
  rw [if_neg h1, if_neg h2]
  simp only [execRsvd00, execRsvd03, execRsvd0407, execRsvd080F, execRsvd101F, execRsvd203F, execRsvd407F, execRsvd80FF,
    rsvd, ite_self]

/-- The state in which the command of a dispatched packet runs: handed over, wakeup requested if suspended (R151). -/
def handedOver (t : Byte) (p : List Byte) (s : State) : State := wake (emit (.deliver t p.length p) s)

@[simp] theorem handedOver_stage (t : Byte) (p : List Byte) (s : State) : (handedOver t p s).stage = s.stage := by
  simp [handedOver]
@[simp] theorem handedOver_ptype (t : Byte) (p : List Byte) (s : State) : (handedOver t p s).ptype = s.ptype := by
  simp [handedOver]
@[simp] theorem handedOver_plen (t : Byte) (p : List Byte) (s : State) : (handedOver t p s).plen = s.plen := by
  simp [handedOver]
@[simp] theorem handedOver_fill (t : Byte) (p : List Byte) (s : State) : (handedOver t p s).fill = s.fill := by
  simp [handedOver]
@[simp] theorem handedOver_buf (t : Byte) (p : List Byte) (s : State) : (handedOver t p s).buf = s.buf := by
  simp [handedOver]
@[simp] theorem handedOver_deadline (t : Byte) (p : List Byte) (s : State) : (handedOver t p s).deadline = s.deadline := by
  simp [handedOver]
@[simp] theorem handedOver_dstage (t : Byte) (p : List Byte) (s : State) : (handedOver t p s).dstage = s.dstage := by
  simp [handedOver]
@[simp] theorem handedOver_dSent (t : Byte) (p : List Byte) (s : State) : (handedOver t p s).dSent = s.dSent := by
  simp [handedOver]
@[simp] theorem handedOver_dDeadline (t : Byte) (p : List Byte) (s : State) : (handedOver t p s).dDeadline = s.dDeadline := by
  simp [handedOver]
@[simp] theorem handedOver_dButtons (t : Byte) (p : List Byte) (s : State) : (handedOver t p s).dButtons = s.dButtons := by
  simp [handedOver]
@[simp] theorem handedOver_dX (t : Byte) (p : List Byte) (s : State) : (handedOver t p s).dX = s.dX := by
  simp [handedOver]
@[simp] theorem handedOver_dY (t : Byte) (p : List Byte) (s : State) : (handedOver t p s).dY = s.dY := by
  simp [handedOver]
@[simp] theorem handedOver_now (t : Byte) (p : List Byte) (s : State) : (handedOver t p s).now = s.now := by
  simp [handedOver]
@[simp] theorem handedOver_devReady (t : Byte) (p : List Byte) (s : State) : (handedOver t p s).devReady = s.devReady := by
  simp [handedOver]
@[simp] theorem handedOver_devSuspended (t : Byte) (p : List Byte) (s : State) : (handedOver t p s).devSuspended = s.devSuspended := by
  simp [handedOver]
@[simp] theorem handedOver_rx (t : Byte) (p : List Byte) (s : State) : (handedOver t p s).rx = s.rx := by
  simp [handedOver]
@[simp] theorem handedOver_script (t : Byte) (p : List Byte) (s : State) : (handedOver t p s).script = s.script := by
  simp [handedOver]
@[simp] theorem handedOver_cycles (t : Byte) (p : List Byte) (s : State) : (handedOver t p s).cycles = s.cycles := by
  simp [handedOver]

/-- The wakeup request of a dispatch, if the link is suspended. -/
def wakeActions : Bool → List Action
  | true => [.wakeReq]
  | false => []

theorem wakeActions_cases (z : Bool) : (z = false ∧ wakeActions z = []) ∨ (z = true ∧ wakeActions z = [.wakeReq]) := by
  cases z <;> simp [wakeActions]

theorem handedOver_trace (t : Byte) (p : List Byte) (s : State) :
    (handedOver t p s).trace =
      s.trace ++ ([Action.deliver t p.length p] ++ wakeActions s.devSuspended).map (fun a => (s.now, a)) := by
  cases h : s.devSuspended <;> simp [handedOver, wake_trace, h, wakeActions]

theorem dispatch_eq (t : Byte) (p : List Byte) (s : State) :
    dispatch ⟨t, p⟩ s = runCommand t p (handedOver t p s) := rfl

/-- What a command can do: a `Drop` mark, one keyboard report, or one mouse report that starts a burst. -/
theorem runCommand_next (t : Byte) (p : List Byte) (s : State) :
    (∃ c, runCommand t p s = .next (dropMark c s)) ∨
    (t = 2 ∧ 7 ≤ p.length ∧ s.devReady = true ∧
      runCommand t p s = .next (emit (.kbdReport (kbdModifiers p) (kbdKeycodes p)) s)) ∨
    (t = 1 ∧ 5 ≤ p.length ∧ s.devReady = true ∧
      runCommand t p s = .next (startBurst (mouseButtons p) (mouseX p) (mouseY p)
        (emit (.mouseReport (mouseButtons p) (mouseX p) (mouseY p)) s))) := by
  obtain ⟨rfl, h⟩ | ⟨rfl, h⟩ | ⟨-, -, h⟩ := runCommand_cases t p s <;> rw [h]
  · obtain ⟨-, h⟩ | ⟨-, -, h⟩ | ⟨hl, hr, h⟩ := execMouse_cases p s
    · exact .inl ⟨_, h⟩
    · exact .inl ⟨_, h⟩
    · exact .inr (.inr ⟨rfl, hl, hr, h⟩)
  · obtain ⟨-, h⟩ | ⟨-, -, h⟩ | ⟨hl, hr, h⟩ := execKeyboard_cases p s
    · exact .inl ⟨_, h⟩
    · exact .inl ⟨_, h⟩
    · exact .inr (.inl ⟨rfl, hl, hr, h⟩)
  · exact .inl ⟨_, rfl⟩

/-- `CSUM_OK` inside the buffer (R120). -/
theorem exec_csumOk (b : Byte) {s : State} (h : s.plen.toNat ≤ 64) :
    exec (.csumOk b) s =
      runCommand s.ptype (s.buf.readList s.plen.toNat)
        (handedOver s.ptype (s.buf.readList s.plen.toNat) (frameReset s)) := by
  simp [exec, execCsumOk, bufRead_of_le h, dispatch_eq]

theorem andThen_eq_next {r : Result} {k : State → Result} {t : State} :
    andThen r k = .next t ↔ ∃ s, r = .next s ∧ k s = .next t := by
  cases r <;> simp [andThen]

@[simp] theorem andThen_next (s : State) (k : State → Result) : andThen (.next s) k = k s := rfl

end Sys2Proof.Laws
end

