-- ==== Sys2Proof/Laws/Flags.lean ====
section
/-! SUPPORT. Each steering condition as a proposition, and the constants as numerals. -/

namespace Sys2Proof.Laws

open Sys2Proof.Machine

theorem timeoutTicks_eq : Config.timeoutTicks = 100000 := rfl

theorem pauseTicks_eq : Config.pauseTicks = 10000 := rfl

theorem lenOver_iff {b : Byte} : lenOver b = true ↔ 64 < b.toNat := by simp [lenOver]

theorem lenZero_iff {b : Byte} : lenZero b = true ↔ b.toNat = 0 := by
  simp only [lenZero, decide_eq_true_eq]
  exact ⟨fun h => by simp [h], fun h => BitVec.eq_of_toNat_eq (by simpa using h)⟩

theorem magicHit_iff {b : Byte} : magicHit b = true ↔ b = 0xAA := by simp [magicHit]

/-- The watchdog has expired (R141), at the default of `WD_EXPIRE_AT_EQUAL`. -/
theorem wdExpired_iff {s : State} : wdExpired s = true ↔ s.stage ≠ .awaitingMagic ∧ s.deadline < s.now := by
  simp [wdExpired, deadlinePassed]

theorem pauseOver_iff {s : State} : pauseOver s = true ↔ s.dstage = .burst ∧ s.dDeadline ≤ s.now := by
  simp [pauseOver]

theorem moreDue_iff {s : State} : moreDue s = true ↔ s.fill.toNat + 1 < s.plen.toNat := by simp [moreDue]

/-- The no-wrap assumption as R145 writes it. -/
theorem timeFits_iff {now : Nat} :
    timeFits now = true ↔ now + Config.timeoutTicks < 2 ^ 64 ∧ now + Config.pauseTicks < 2 ^ 64 := by
  simp only [timeFits, Bool.and_eq_true, decide_eq_true_eq, timeoutTicks_eq, pauseTicks_eq, Config.timeW]
  omega

/-- A time before one that fits fits. -/
theorem timeFits_mono {a b : Nat} (h : a ≤ b) (hb : timeFits b = true) : timeFits a = true := by
  rw [timeFits_iff] at *
  omega

end Sys2Proof.Laws
end

