-- ==== Sys2Proof/Laws/PerInstr.lean ====
section
/-! SUPPORT. Facts about every operation as syntax, one lemma per constructor. -/

namespace Sys2Proof.Laws

/-- How many bytes of the stream an operation's encoding takes (R71, R84, R87): one, none, or a whole frame. -/
def byteCount : Instr → Nat
  | .syncHit => 1
  | .syncMiss _ => 1
  | .typeByte _ => 1
  | .lenZero => 1
  | .lenOk _ => 1
  | .lenOver _ => 1
  | .pay _ => 1
  | .payLast _ => 1
  | .csumOk _ => 1
  | .csumBad _ => 1
  | .wdExpire => 0
  | .burstNext => 0
  | .burstEnd => 0
  | .mouse p => p.length + 4
  | .keyboard p => p.length + 4
  | .rsvd00 p => p.length + 4
  | .rsvd03 p => p.length + 4
  | .rsvd0407 _ p => p.length + 4
  | .rsvd080F _ p => p.length + 4
  | .rsvd101F _ p => p.length + 4
  | .rsvd203F _ p => p.length + 4
  | .rsvd407F _ p => p.length + 4
  | .rsvd80FF _ p => p.length + 4

/-- `len(encode(t, p)) = len(p) + 4` (R88). -/
theorem length_encodeFrame (t : Byte) (p : List Byte) : (encodeFrame t p).length = p.length + 4 := by
  simp [encodeFrame]

/-- The encoding of an operation has as many bytes as `byteCount` says. -/
def EncodedLength.Statement (i : Instr) : Prop := (encode i).length = byteCount i

namespace EncodedLength

theorem syncHit : Statement .syncHit := rfl
theorem syncMiss (b : Byte) : Statement (.syncMiss b) := rfl
theorem typeByte (b : Byte) : Statement (.typeByte b) := rfl
theorem lenZero : Statement .lenZero := rfl
theorem lenOk (b : Byte) : Statement (.lenOk b) := rfl
theorem lenOver (b : Byte) : Statement (.lenOver b) := rfl
theorem pay (b : Byte) : Statement (.pay b) := rfl
theorem payLast (b : Byte) : Statement (.payLast b) := rfl
theorem csumOk (b : Byte) : Statement (.csumOk b) := rfl
theorem csumBad (b : Byte) : Statement (.csumBad b) := rfl
theorem wdExpire : Statement .wdExpire := rfl
theorem burstNext : Statement .burstNext := rfl
theorem burstEnd : Statement .burstEnd := rfl
theorem mouse (p : List Byte) : Statement (.mouse p) := length_encodeFrame _ p
theorem keyboard (p : List Byte) : Statement (.keyboard p) := length_encodeFrame _ p
theorem rsvd00 (p : List Byte) : Statement (.rsvd00 p) := length_encodeFrame _ p
theorem rsvd03 (p : List Byte) : Statement (.rsvd03 p) := length_encodeFrame _ p
theorem rsvd0407 (t : BitVec 2) (p : List Byte) : Statement (.rsvd0407 t p) := length_encodeFrame _ p
theorem rsvd080F (t : BitVec 3) (p : List Byte) : Statement (.rsvd080F t p) := length_encodeFrame _ p
theorem rsvd101F (t : BitVec 4) (p : List Byte) : Statement (.rsvd101F t p) := length_encodeFrame _ p
theorem rsvd203F (t : BitVec 5) (p : List Byte) : Statement (.rsvd203F t p) := length_encodeFrame _ p
theorem rsvd407F (t : BitVec 6) (p : List Byte) : Statement (.rsvd407F t p) := length_encodeFrame _ p
theorem rsvd80FF (t : BitVec 7) (p : List Byte) : Statement (.rsvd80FF t p) := length_encodeFrame _ p

end EncodedLength

end Sys2Proof.Laws
end

