-- ==== Sys2Proof/Laws/Step.lean ====
section
/-! SUPPORT. What a step can do, said once: the inversion lemma of `step`. -/

namespace Sys2Proof.Laws

open Sys2Proof.Machine Sys2Proof.Safety

/-! ### The fields of `opened` -/

@[simp] theorem opened_stage (s : State) : (opened s).stage = s.stage := rfl
@[simp] theorem opened_ptype (s : State) : (opened s).ptype = s.ptype := rfl
@[simp] theorem opened_plen (s : State) : (opened s).plen = s.plen := rfl
@[simp] theorem opened_fill (s : State) : (opened s).fill = s.fill := rfl
@[simp] theorem opened_buf (s : State) : (opened s).buf = s.buf := rfl
@[simp] theorem opened_deadline (s : State) : (opened s).deadline = s.deadline := rfl
@[simp] theorem opened_dstage (s : State) : (opened s).dstage = s.dstage := rfl
@[simp] theorem opened_dSent (s : State) : (opened s).dSent = s.dSent := rfl
@[simp] theorem opened_dDeadline (s : State) : (opened s).dDeadline = s.dDeadline := rfl
@[simp] theorem opened_dButtons (s : State) : (opened s).dButtons = s.dButtons := rfl
@[simp] theorem opened_dX (s : State) : (opened s).dX = s.dX := rfl
@[simp] theorem opened_dY (s : State) : (opened s).dY = s.dY := rfl
@[simp] theorem opened_now (s : State) : (opened s).now = s.now + (nextCycle s).advance := rfl
@[simp] theorem opened_devReady (s : State) : (opened s).devReady = (nextCycle s).ready := rfl
@[simp] theorem opened_devSuspended (s : State) : (opened s).devSuspended = (nextCycle s).suspended := rfl
@[simp] theorem opened_rx (s : State) : (opened s).rx = s.rx ++ (nextCycle s).arrivals := rfl
@[simp] theorem opened_script (s : State) : (opened s).script = s.script.tail := rfl
@[simp] theorem opened_cycles (s : State) : (opened s).cycles = s.cycles + 1 := rfl
@[simp] theorem opened_trace (s : State) : (opened s).trace = s.trace := rfl

/-! ### The fields of `afterWatchdog` -/

@[simp] theorem afterWatchdog_buf (s : State) : (afterWatchdog s).buf = s.buf := by
  unfold afterWatchdog; split <;> rfl
@[simp] theorem afterWatchdog_deadline (s : State) : (afterWatchdog s).deadline = s.deadline := by
  unfold afterWatchdog; split <;> rfl
@[simp] theorem afterWatchdog_dstage (s : State) : (afterWatchdog s).dstage = s.dstage := by
  unfold afterWatchdog; split <;> rfl
@[simp] theorem afterWatchdog_dSent (s : State) : (afterWatchdog s).dSent = s.dSent := by
  unfold afterWatchdog; split <;> rfl
@[simp] theorem afterWatchdog_dDeadline (s : State) : (afterWatchdog s).dDeadline = s.dDeadline := by
  unfold afterWatchdog; split <;> rfl
@[simp] theorem afterWatchdog_dButtons (s : State) : (afterWatchdog s).dButtons = s.dButtons := by
  unfold afterWatchdog; split <;> rfl
@[simp] theorem afterWatchdog_dX (s : State) : (afterWatchdog s).dX = s.dX := by
  unfold afterWatchdog; split <;> rfl
@[simp] theorem afterWatchdog_dY (s : State) : (afterWatchdog s).dY = s.dY := by
  unfold afterWatchdog; split <;> rfl
@[simp] theorem afterWatchdog_now (s : State) : (afterWatchdog s).now = s.now := by
  unfold afterWatchdog; split <;> rfl
@[simp] theorem afterWatchdog_devReady (s : State) : (afterWatchdog s).devReady = s.devReady := by
  unfold afterWatchdog; split <;> rfl
@[simp] theorem afterWatchdog_devSuspended (s : State) : (afterWatchdog s).devSuspended = s.devSuspended := by
  unfold afterWatchdog; split <;> rfl
@[simp] theorem afterWatchdog_rx (s : State) : (afterWatchdog s).rx = s.rx := by
  unfold afterWatchdog; split <;> rfl
@[simp] theorem afterWatchdog_script (s : State) : (afterWatchdog s).script = s.script := by
  unfold afterWatchdog; split <;> rfl
@[simp] theorem afterWatchdog_cycles (s : State) : (afterWatchdog s).cycles = s.cycles := by
  unfold afterWatchdog; split <;> rfl

/-- The mark an expired window leaves in the trace. -/
def timeoutMarks : Bool → List Action
  | true => [.drop .timeout]
  | false => []

theorem afterWatchdog_trace (s : State) :
    (afterWatchdog s).trace = s.trace ++ (timeoutMarks (wdExpired s)).map (fun a => (s.now, a)) := by
  unfold afterWatchdog; cases h : wdExpired s <;> simp [timeoutMarks]

/-! ### Runs -/

/-- One step of a run. -/
theorem run_next {M : Host.Core} {k : Nat} {s u : M.State} (h : M.step s = .next u) : M.run (k + 1) s = M.run k u := by
  simp [Host.Core.run, h]

/-! ### The phases -/

theorem watchdogPhase_exec (s : State) : watchdogPhase exec s = .next (afterWatchdog s) := by
  unfold watchdogPhase afterWatchdog; split <;> rfl

/-- What part 1 leaves is the state as it was, or the frame abandoned in an expired window. -/
theorem afterWatchdog_cases (s : State) :
    (wdExpired s = false ∧ afterWatchdog s = s) ∨ (wdExpired s = true ∧ afterWatchdog s = parserDrop .timeout s) := by
  unfold afterWatchdog; cases wdExpired s <;> simp

theorem step_eq (s : State) :
    step s =
      if timeFits (opened s).now then
        if (nextCycle s).rstN then stepEvent exec (eventOf (opened s)) (opened s)
        else .next (resetRegisters (opened s))
      else .refused .timeWraps := rfl

theorem step_refused {s : State} (h : timeFits (opened s).now = false) : step s = .refused .timeWraps := by
  rw [step_eq, if_neg (by rw [h]; decide)]

theorem step_reset {s : State} (h : timeFits (opened s).now = true) (hr : (nextCycle s).rstN = false) :
    step s = .next (resetRegisters (opened s)) := by
  rw [step_eq, if_pos h, if_neg (by rw [hr]; decide)]

theorem step_event {s : State} (h : StepCycle s) :
    step s = stepEvent exec (eventOf (opened s)) (opened s) := by
  rw [step_eq, if_pos h.2, if_pos h.1]

theorem stepEvent_tick (s : State) : stepEvent exec .tick s = burstPhase exec (afterWatchdog s) := by
  simp [stepEvent, watchdogPhase_exec]

theorem stepEvent_byte (b : Byte) (s : State) :
    stepEvent exec (.byte b) s = bytePhase exec b (afterWatchdog s) := by
  simp [stepEvent, watchdogPhase_exec]

/-- The burst sequencer: nothing due, one more emission, or the end of the burst. -/
theorem burstPhase_cases (s : State) :
    (pauseOver s = false ∧ burstPhase exec s = .next s) ∨
    (pauseOver s = true ∧ s.dSent.toNat < 3 ∧
      burstPhase exec s = .next (continueBurst (emit (.mouseReport s.dButtons s.dX s.dY) s))) ∨
    (pauseOver s = true ∧ 3 ≤ s.dSent.toNat ∧ burstPhase exec s = .next (endBurst s)) := by
  unfold burstPhase Config.burstCount
  cases h : pauseOver s
  · simp
  · by_cases h3 : s.dSent.toNat < 3
    · simp [h3, exec, execBurstNext]
    · simp [h3, Nat.le_of_not_lt h3, exec, execBurstEnd]

theorem eventOf_byte {s : State} {b : Byte} {rest : List Byte} (hd : s.dstage = .idle) (hr : s.rx = b :: rest) :
    eventOf s = .byte b := by simp [eventOf, hd, hr]

theorem eventOf_tick {s : State} (h : s.dstage = .burst ∨ s.rx = []) : eventOf s = .tick := by
  unfold eventOf
  cases hd : s.dstage <;> cases hr : s.rx <;> simp_all

theorem eventOf_cases (s : State) :
    ((s.dstage = .burst ∨ s.rx = []) ∧ eventOf s = .tick) ∨
    (∃ b rest, s.dstage = .idle ∧ s.rx = b :: rest ∧ eventOf s = .byte b) := by
  unfold eventOf
  cases hd : s.dstage <;> cases hr : s.rx <;> simp

theorem byteCtx_of_le {s : State} (h : s.plen.toNat ≤ 64) :
    byteCtx s = some ⟨s.stage, moreDue s, checksum s.ptype s.plen (s.buf.readList (checkedLength s))⟩ := by
  have : checkedLength s ≤ 64 := by unfold checkedLength; split <;> omega
  simp [byteCtx, bufRead_of_le this]

/-- Everything a step can do (R183, R241): a reset cycle; a tick, which may abandon a frame and may do one burst operation;
or a byte, which may first abandon a frame and then does the byte operation its context selects. -/
theorem step_cases {s t : State} (h : step s = .next t) :
    timeFits (opened s).now = true ∧
    (((nextCycle s).rstN = false ∧ t = resetRegisters (opened s)) ∨
     ((nextCycle s).rstN = true ∧ ((opened s).dstage = .burst ∨ (opened s).rx = []) ∧
        burstPhase exec (afterWatchdog (opened s)) = .next t) ∨
     ((nextCycle s).rstN = true ∧ ∃ b rest c, (opened s).dstage = .idle ∧ (opened s).rx = b :: rest ∧
        byteCtx (afterWatchdog (opened s)) = some c ∧
        exec (decodeByte c b) { afterWatchdog (opened s) with rx := rest } = .next t)) := by
  cases hf : timeFits (opened s).now
  · rw [step_refused hf] at h; cases h
  refine ⟨rfl, ?_⟩
  cases hr : (nextCycle s).rstN
  · rw [step_reset hf hr] at h; cases h; exact .inl ⟨rfl, rfl⟩
  rw [step_event ⟨hr, hf⟩] at h
  obtain ⟨hb, he⟩ | ⟨b, rest, hd, hx, he⟩ := eventOf_cases (opened s) <;> rw [he] at h
  · rw [stepEvent_tick] at h; exact .inr (.inl ⟨rfl, hb, h⟩)
  · rw [stepEvent_byte] at h
    unfold bytePhase at h
    split at h
    · cases h
    · rename_i c hc
      refine .inr (.inr ⟨rfl, b, rest, c, hd, hx, hc, ?_⟩)
      have hx' : consume (afterWatchdog (opened s)) = { afterWatchdog (opened s) with rx := rest } := by
        unfold consume; rw [afterWatchdog_rx, hx]; rfl
      rwa [hx'] at h

end Sys2Proof.Laws
end

