-- ==== Sys2Proof/Laws/Trace.lean ====
section
/-! SUPPORT. What a step appends to the trace, said once, with what comes with it (R181, R185, R188). -/

namespace Sys2Proof.Laws

open Sys2Proof.Machine Sys2Proof.Safety

/-- A step from `s` to `t` hands over the frame in flight, whose payload is `p`. -/
structure HandsOver (s t : State) (p : List Byte) : Prop where
  idle    : s.dstage = .idle
  stage   : s.stage = .awaitingChecksum
  inTime  : wdExpired (opened s) = false
  fits    : s.plen.toNat ≤ 64
  payload : p = s.buf.readList s.plen.toNat
  offered : (opened s).rx.head? = some (checksum s.ptype s.plen p)
  emptied : FrameEmpty t

/-- The actions of a step after the watchdog's mark, each with what comes with it. -/
inductive Tail (s t : State) : List Action → Prop
  | quiet (idle : s.dstage = .idle → t.dstage = .idle) (less : owed t ≤ owed s) : Tail s t []
  | mark (c : Cause) (idle : s.dstage = .idle) (idle' : t.dstage = .idle) : Tail s t [.drop c]
  | repeated (burst : s.dstage = .burst) (less : owed t + 1 ≤ owed s) :
      Tail s t [.mouseReport s.dButtons s.dX s.dY]
  | dropped (p : List Byte) (c : Cause) (h : HandsOver s t p) (idle' : t.dstage = .idle) :
      Tail s t ([.deliver s.ptype p.length p] ++ wakeActions (opened s).devSuspended ++ [.drop c])
  | keyboard (p : List Byte) (h : HandsOver s t p) (idle' : t.dstage = .idle) (type : s.ptype = 2)
      (long : 7 ≤ p.length) (ready : (opened s).devReady = true) :
      Tail s t ([.deliver s.ptype p.length p] ++ wakeActions (opened s).devSuspended ++
        [.kbdReport (kbdModifiers p) (kbdKeycodes p)])
  | mouse (p : List Byte) (h : HandsOver s t p) (burst' : t.dstage = .burst) (first : t.dSent = 1) (type : s.ptype = 1)
      (long : 5 ≤ p.length) (ready : (opened s).devReady = true) :
      Tail s t ([.deliver s.ptype p.length p] ++ wakeActions (opened s).devSuspended ++
        [.mouseReport (mouseButtons p) (mouseX p) (mouseY p)])

/-- What a step leaves on the ports and in the trace. -/
structure Shape (s t : State) (marks tail : List Action) : Prop where
  now          : t.now = (opened s).now
  devReady     : t.devReady = (opened s).devReady
  devSuspended : t.devSuspended = (opened s).devSuspended
  marked       : marks = [] ∨ marks = [.drop .timeout]
  trace        : t.trace = s.trace ++ (marks ++ tail).map (fun a => (t.now, a))
  kind         : Tail s t tail

theorem timeoutMarks_cases (b : Bool) : timeoutMarks b = [] ∨ timeoutMarks b = [.drop .timeout] := by
  cases b <;> simp [timeoutMarks]

/-- The state `v` in which a step ends, seen from the state the watchdog leaves: its ports, and the actions added since. -/
theorem shape_of {s v : State} {tail : List Action} (hn : v.now = (opened s).now) (hr : v.devReady = (opened s).devReady)
    (hs : v.devSuspended = (opened s).devSuspended)
    (ht : v.trace = (afterWatchdog (opened s)).trace ++ tail.map (fun a => ((opened s).now, a))) (h : Tail s v tail) :
    ∃ marks tail, Shape s v marks tail :=
  ⟨timeoutMarks (wdExpired (opened s)), tail, hn, hr, hs, timeoutMarks_cases _, by
    rw [ht, afterWatchdog_trace, hn, opened_trace, List.map_append, List.append_assoc], h⟩

theorem frameEmpty_handedOver (t : Byte) (p : List Byte) (s : State) : FrameEmpty (handedOver t p (frameReset s)) := by
  constructor <;> simp

/-- Outside a delivery, what a byte operation does: at most a mark, and nothing to the dispatcher or the ports. -/
theorem byte_quiet {u t : State} {c : ByteCtx} {b : Byte} (hc : ¬ (c.stage = .awaitingChecksum ∧ b = c.expected))
    (h : exec (decodeByte c b) u = .next t) :
    t.now = u.now ∧ t.devReady = u.devReady ∧ t.devSuspended = u.devSuspended ∧ t.dstage = u.dstage ∧
      (t.trace = u.trace ∨ ∃ k, t.trace = u.trace ++ [(u.now, .drop k)]) := by
  obtain ⟨st, m, e⟩ := c
  cases st <;> simp only [decodeByte] at h
  · split at h <;> cases h
    · exact ⟨rfl, rfl, rfl, rfl, .inl rfl⟩
    · exact ⟨rfl, rfl, rfl, rfl, .inr ⟨_, rfl⟩⟩
  · cases h; exact ⟨rfl, rfl, rfl, rfl, .inl rfl⟩
  · split at h
    · cases h; exact ⟨rfl, rfl, rfl, rfl, .inl rfl⟩
    · split at h <;> cases h
      · exact ⟨rfl, rfl, rfl, rfl, .inr ⟨_, rfl⟩⟩
      · exact ⟨rfl, rfl, rfl, rfl, .inl rfl⟩
  · split at h <;> simp only [exec, execPay, execPayLast, appendByte_eq] at h <;> split at h <;> cases h <;>
      exact ⟨rfl, rfl, rfl, rfl, .inl rfl⟩
  · split at h
    · exact absurd ⟨rfl, ‹_›⟩ hc
    · cases h; exact ⟨rfl, rfl, rfl, rfl, .inr ⟨_, rfl⟩⟩

/-- Every step that gives a next state, by what it appends to the trace. -/
theorem step_shape {s t : State} (h : step s = .next t) : ∃ marks tail, Shape s t marks tail := by
  obtain ⟨-, ⟨-, rfl⟩ | ⟨-, -, h⟩ | ⟨-, b, rest, c, hd, hx, hc, h⟩⟩ := step_cases h
  · exact ⟨[], [], rfl, rfl, rfl, .inl rfl, by simp, .quiet (fun _ => rfl) (by simp [owed])⟩
  · obtain ⟨-, h'⟩ | ⟨hp, h3, h'⟩ | ⟨hp, -, h'⟩ := burstPhase_cases (afterWatchdog (opened s)) <;> rw [h'] at h <;> cases h
    · exact shape_of (by simp) (by simp) (by simp) (tail := []) (by simp) (.quiet (by simp) (by simp [owed]))
    · have hb : s.dstage = .burst := by simpa using (pauseOver_iff.1 hp).1
      refine shape_of (by simp) (by simp) (by simp) (tail := [.mouseReport s.dButtons s.dX s.dY]) (by simp) (.repeated hb ?_)
      simp only [afterWatchdog_dSent, opened_dSent] at h3
      simp [owed, hb, BitVec.toNat_add]
      omega
    · exact shape_of (by simp) (by simp) (by simp) (tail := []) (by simp) (.quiet (by simp) (by simp [owed]))
  · by_cases hcs : c.stage = .awaitingChecksum ∧ b = c.expected
    · have hst : (afterWatchdog (opened s)).stage = .awaitingChecksum := by
        simp only [byteCtx, Option.map_eq_some_iff] at hc
        obtain ⟨_, -, rfl⟩ := hc
        exact hcs.1
      obtain ⟨hw, he⟩ | ⟨-, he⟩ := afterWatchdog_cases (opened s)
      swap
      · rw [he] at hst; simp at hst
      rw [he] at hst hc h
      have hlen : s.plen.toNat ≤ 64 := by
        by_contra hcon
        have hnone : byteCtx (opened s) = none := by
          unfold byteCtx checkedLength
          rw [if_pos hst, bufRead_eq, if_neg (by simpa using hcon)]
          rfl
        rw [hnone] at hc
        cases hc
      rw [byteCtx_of_le (by simpa using hlen)] at hc
      cases hc
      simp only [decodeByte, checkedLength, opened_stage, opened_ptype, opened_plen, opened_buf] at hcs h hst
      simp only [hst, if_true] at hcs h
      rw [if_pos hcs.2, exec_csumOk _ (by simpa using hlen)] at h
      generalize hp : s.buf.readList s.plen.toNat = p at h hcs
      have hand : ∀ v, FrameEmpty v → HandsOver s v p := fun v hv =>
        ⟨by simpa using hd, hst, hw, hlen, hp.symm, by rw [hx]; simp [hcs.2], hv⟩
      have hi : s.dstage = .idle := by simpa using hd
      obtain ⟨k, h'⟩ | ⟨h2, h7, hr, h'⟩ | ⟨h1, h5, hr, h'⟩ := runCommand_next s.ptype p _ <;> rw [h'] at h <;> cases h
      · exact shape_of (by simp) (by simp) (by simp) (by simp [handedOver_trace, he])
          (.dropped p k (hand _ (by constructor <;> simp)) (by simpa using hi))
      · exact shape_of (by simp) (by simp) (by simp) (by simp [handedOver_trace, he])
          (.keyboard p (hand _ (by constructor <;> simp)) (by simpa using hi) h2 h7 (by simpa using hr))
      · exact shape_of (by simp) (by simp) (by simp) (by simp [handedOver_trace, he])
          (.mouse p (hand _ (by constructor <;> simp)) rfl rfl h1 h5 (by simpa using hr))
    · obtain ⟨h1, h2, h3, h4, h5⟩ := byte_quiet hcs h
      simp only [afterWatchdog_now, afterWatchdog_devReady, afterWatchdog_devSuspended, afterWatchdog_dstage] at h1 h2 h3 h4 h5
      have hi : s.dstage = .idle := by simpa using hd
      have hi' : t.dstage = .idle := by rw [h4, hd]
      obtain h5 | ⟨k, h5⟩ := h5
      · exact shape_of h1 h2 h3 (tail := []) (by simpa using h5) (.quiet (fun _ => hi') (by simp [owed, hi']))
      · exact shape_of h1 h2 h3 (tail := [.drop k]) (by simpa using h5) (.mark k hi hi')

/-- The actions of a step, from its shape. -/
theorem Shape.stepActions_eq {s t : State} {marks tail : List Action} (h : Shape s t marks tail) :
    stepActions s t = marks ++ tail := by
  simp [stepActions, h.trace, Function.comp_def]

end Sys2Proof.Laws
end

