-- ==== Sys2Proof/Machine/Stream.lean ====
section
/-! DEFINITION. The notation for frames and streams (R89): the bytes of a line, and the cycles of a timed stream, which can
stand in `State.script`. No operation and no step reads it. -/

namespace Sys2Proof.Machine

/-- A line of the notation. -/
inductive StreamLine where
  | raw (bytes : List Byte)
  | frame (type : Byte) (payload : List Byte)
  | badSum (type : Byte) (payload : List Byte) (check : Byte)
  | mouse (x y : Half) (buttons : Byte)
  | key (modifiers k1 k2 k3 k4 k5 k6 : Byte)
  | wait (ms : Nat)
  | dev (ready suspended : Bool)
  deriving DecidableEq, Repr

/-- A line with the time in milliseconds at which its first byte is consumed, where `@t` stands before it. Before a line that
offers no byte, `@t` is the time at which the line begins: DESIGN CHOICE, safe (log 24). -/
structure TimedLine where
  time : Option Nat
  line : StreamLine
  deriving DecidableEq, Repr

/-- The payload of the pseudo-instruction `MOUSE`. -/
def mousePayload (x y : Half) (buttons : Byte) : List Byte :=
  [x.extractLsb' 0 8, x.extractLsb' 8 8, y.extractLsb' 0 8, y.extractLsb' 8 8, buttons]

/-- The bytes a line offers, in order. -/
def StreamLine.bytes : StreamLine → List Byte
  | .raw bs => bs
  | .frame t p => encodeFrame t p
  | .badSum t p c => [Config.magic, t, lengthByte p] ++ p ++ [c]
  | .mouse x y b => encodeFrame Config.typeMouse (mousePayload x y b)
  | .key m k1 k2 k3 k4 k5 k6 => encodeFrame Config.typeKeyboard [m, k1, k2, k3, k4, k5, k6]
  | .wait _ => []
  | .dev _ _ => []

/-- `WAIT d`: one cycle at every millisecond and none offered, the last at the final time. Each is followed by `held` cycles
at the same time, so that up to `held` bytes that a burst has held are all consumed at the time at which the burst ends. R89
does not say when held bytes are consumed; P1 and P3 of 95_test_vectors.md have it so. DESIGN CHOICE, safe (log 24). -/
def waitCycles (ready suspended : Bool) (held ms : Nat) : List Cycle :=
  (List.replicate ms
    (⟨true, Config.ticksPerMs, [], ready, suspended⟩ :: List.replicate held ⟨true, 0, [], ready, suspended⟩)).flatten

/-- One cycle per byte, all at the same time (R89). -/
def byteCycles (ready suspended : Bool) (bytes : List Byte) : List Cycle :=
  bytes.map fun b => ⟨true, 0, [b], ready, suspended⟩

/-- The cycles of a stream that begins at `ms` milliseconds, with the sink's answers in force there, after lines that have
offered `held` bytes. Up to a later `@t` time passes as in a WAIT; where `t` lies before the time `ms` that the earlier lines
have reached, of which R89 says nothing, the line begins at `ms`: DESIGN CHOICE, safe (log 24). -/
def streamFrom (ms held : Nat) (ready suspended : Bool) : List TimedLine → List Cycle
  | [] => []
  | ⟨time, line⟩ :: lines =>
    let start := max ms (time.getD ms)
    waitCycles ready suspended held (start - ms) ++
      match line with
      | .wait d => waitCycles ready suspended held d ++ streamFrom (start + d) held ready suspended lines
      | .dev r z => streamFrom start held r z lines
      | .raw _ | .frame _ _ | .badSum _ _ _ | .mouse _ _ _ | .key _ _ _ _ _ _ _ =>
        byteCycles ready suspended line.bytes ++ streamFrom start (held + line.bytes.length) ready suspended lines

/-- The cycles of a whole stream. -/
def streamCycles (ms : Nat) (ready suspended : Bool) (lines : List TimedLine) : List Cycle :=
  streamFrom ms 0 ready suspended lines

end Sys2Proof.Machine
end

