-- ==== Sys2Proof/Tests/Slice0.lean ====
section
/-! SUPPORT. The model's own tests: ill-formed terms, words written out from the spec's encodings, single steps with results
taken from the examples and vectors of spec/, and a witness for the hypotheses of every statement. -/

namespace Sys2Proof.Tests

open Sys2Proof.Machine Sys2Proof.Safety

/-! ### Helpers -/

/-- What is read of the next state, if there is one. -/
def after {α : Type} (r : Result) (f : State → α) : Option α :=
  match r with
  | .next t => some (f t)
  | .fault _ => none
  | .refused _ => none

/-- There is a next state and it satisfies `f`. -/
def holds (r : Result) (f : State → Bool) : Bool :=
  match r with
  | .next t => f t
  | .fault _ => false
  | .refused _ => false

/-- A cycle with a ready, active device in which time advances and nothing arrives. -/
def tick (advance : Nat) : Cycle := ⟨true, advance, [], true, false⟩

/-- A parser in a stage, with time still at 0. -/
def inStage (st : Stage) (ptype plen : Byte) (fill : BitVec 7) : State :=
  { State.reset with stage := st, ptype := ptype, plen := plen, fill := fill }

/-- A mouse burst with `n` emissions made and the pause ending at 10000. -/
def inBurst (n : BitVec 2) : State :=
  { State.reset with dstage := .burst, dSent := n, dDeadline := 10000, dButtons := 5, dX := 0x1234 }

/-- The buffer of S2: `34 12 00 00 05`. -/
def bufS2 : Memory := [(0, 0x34), (1, 0x12), (4, 0x05)]

/-- The frame of S2 but for its checksum byte. -/
def frameS2 : State := { inStage .awaitingChecksum 0x01 5 5 with buf := bufS2, deadline := 100000 }

/-- `frameS2` with a byte offered in a cycle. -/
def offered (s : State) (b : Byte) (c : Cycle) : State := { s with rx := [b], script := [c] }

/-! ### WellFormed: an ill-formed term for each check -/

theorem test_wf_syncMiss_magic : (Instr.syncMiss 0xAA).wf = false := by decide
theorem test_wf_lenOk_bounds : (Instr.lenOk 0).wf = false ∧ (Instr.lenOk 65).wf = false ∧ (Instr.lenOk 64).wf = true := by
  decide
theorem test_wf_lenOver_bound : (Instr.lenOver 64).wf = false ∧ (Instr.lenOver 65).wf = true := by decide
theorem test_wf_payload_bound :
    (Instr.mouse (List.replicate 65 0)).wf = false ∧ (Instr.keyboard (List.replicate 65 0)).wf = false ∧
    (Instr.rsvd00 (List.replicate 65 0)).wf = false ∧ (Instr.rsvd03 (List.replicate 65 0)).wf = false ∧
    (Instr.rsvd0407 0 (List.replicate 65 0)).wf = false ∧ (Instr.rsvd080F 0 (List.replicate 65 0)).wf = false := by decide
theorem test_wf_payload_bound_high :
    (Instr.rsvd101F 0 (List.replicate 65 0)).wf = false ∧ (Instr.rsvd203F 0 (List.replicate 65 0)).wf = false ∧
    (Instr.rsvd407F 0 (List.replicate 65 0)).wf = false ∧ (Instr.rsvd80FF 0 (List.replicate 65 0)).wf = false ∧
    (Instr.rsvd80FF 0 (List.replicate 64 0)).wf = true := by decide

/-! ### Decoding: words from the spec -/

/-- R84, the rows of AwaitingMagic to AwaitingLength. -/
theorem test_decode_byte_header :
    decodeByte ⟨.awaitingMagic, false, 0⟩ 0xAA = .syncHit ∧ decodeByte ⟨.awaitingMagic, false, 0⟩ 0x55 = .syncMiss 0x55 ∧
    decodeByte ⟨.awaitingType, false, 0⟩ 0xAA = .typeByte 0xAA ∧ decodeByte ⟨.awaitingLength, false, 0⟩ 0x00 = .lenZero ∧
    decodeByte ⟨.awaitingLength, false, 0⟩ 0x01 = .lenOk 0x01 ∧ decodeByte ⟨.awaitingLength, false, 0⟩ 0x40 = .lenOk 0x40 ∧
    decodeByte ⟨.awaitingLength, false, 0⟩ 0x41 = .lenOver 0x41 ∧
    decodeByte ⟨.awaitingLength, false, 0⟩ 0xAA = .lenOver 0xAA := by decide

/-- R84, the rows of AwaitingPayload and AwaitingChecksum. -/
theorem test_decode_byte_body :
    decodeByte ⟨.awaitingPayload, true, 0⟩ 0xAA = .pay 0xAA ∧ decodeByte ⟨.awaitingPayload, false, 0⟩ 0x05 = .payLast 0x05 ∧
    decodeByte ⟨.awaitingChecksum, false, 0x51⟩ 0x51 = .csumOk 0x51 ∧
    decodeByte ⟨.awaitingChecksum, false, 0x51⟩ 0x50 = .csumBad 0x50 := by decide

/-- S2, V20, V58: the frames of `MOUSE`, `KEYBOARD` and `RSVD_03`. -/
theorem test_decode_frames :
    decodeFrame [0xAA, 0x01, 0x05, 0x34, 0x12, 0x00, 0x00, 0x05, 0x51] = .ok (.mouse [0x34, 0x12, 0x00, 0x00, 0x05]) [] ∧
    decodeFrame [0xAA, 0x02, 0x07, 0x02, 0x04, 0x00, 0x00, 0x00, 0x00, 0x00, 0x0F, 0xAA] =
      .ok (.keyboard [0x02, 0x04, 0x00, 0x00, 0x00, 0x00, 0x00]) [0xAA] ∧
    decodeFrame [0xAA, 0x03, 0x03, 0x01, 0x02, 0x03, 0x0C] = .ok (.rsvd03 [0x01, 0x02, 0x03]) [] := by decide

/-- V21, V26 and zero-length frames of the other types (checksum equals type, R101): the `RSVD` rows. -/
theorem test_decode_reserved_frames :
    decodeFrame [0xAA, 0x00, 0x00, 0x00] = .ok (.rsvd00 []) [] ∧
    decodeFrame [0xAA, 0x07, 0x00, 0x07] = .ok (.rsvd0407 0b11 []) [] ∧
    decodeFrame [0xAA, 0x09, 0x00, 0x09] = .ok (.rsvd080F 0b001 []) [] ∧
    decodeFrame [0xAA, 0x1E, 0x00, 0x1E] = .ok (.rsvd101F 0b1110 []) [] ∧
    decodeFrame [0xAA, 0x20, 0x00, 0x20] = .ok (.rsvd203F 0b00000 []) [] ∧
    decodeFrame [0xAA, 0x7F, 0x00, 0x7F] = .ok (.rsvd407F 0b111111 []) [] ∧
    decodeFrame [0xAA, 0xAA, 0x02, 0xAA, 0xAA, 0x00] = .ok (.rsvd80FF 0b0101010 [0xAA, 0xAA]) [] := by decide

/-- V25, V22, and a first byte that is not the magic byte. -/
theorem test_decode_rejections :
    decodeFrame [0xAA, 0x01, 0x05, 0x34, 0x12, 0x00, 0x00, 0x05, 0x50] = .rejected .badChecksum ∧
    decodeFrame [0xAA, 0x01, 0x41, 0x01] = .rejected .oversize ∧
    decodeFrame [0x55, 0x01, 0x00, 0x01] = .rejected .badMagic ∧
    decodeFrame [0xAA, 0x01, 0x05, 0x34] = .rejected .truncated := by decide

/-- R86: the 16-bit words `{magic, type}` of the ten FRAME rows, and the two BYTE words the table fixes. -/
theorem test_decode_table_words :
    decodeTableWord 16 0xAA01 = some (.mouse []) ∧ decodeTableWord 16 0xAA02 = some (.keyboard []) ∧
    decodeTableWord 16 0xAA00 = some (.rsvd00 []) ∧ decodeTableWord 16 0xAA03 = some (.rsvd03 []) ∧
    decodeTableWord 16 0xAA04 = some (.rsvd0407 0 []) ∧ decodeTableWord 16 0xAA08 = some (.rsvd080F 0 []) ∧
    decodeTableWord 16 0xAA10 = some (.rsvd101F 0 []) ∧ decodeTableWord 16 0xAA20 = some (.rsvd203F 0 []) ∧
    decodeTableWord 16 0xAA40 = some (.rsvd407F 0 []) ∧ decodeTableWord 16 0xAA80 = some (.rsvd80FF 0 []) ∧
    decodeTableWord 8 0xAA = some .syncHit ∧ decodeTableWord 8 0x00 = some .lenZero ∧ decodeTableWord 16 0x5501 = none := by
  decide

/-- V10, V14, V16, V17, V19: checksums. -/
theorem test_checksum_vectors :
    checksum 0x01 5 [0x34, 0x12, 0x00, 0x00, 0x05] = 0x51 ∧ checksum 0xFF 1 [0x01] = 0x01 ∧
    checksum 0xAA 2 [0xAA, 0xAA] = 0x00 ∧ checksum 0x01 5 [0x00, 0x40, 0xFF, 0x3F, 0x01] = 0x85 ∧
    checksum 0x03 3 [0x03, 0x02, 0x01] = 0x0C := by decide

/-- V15: 64 bytes of FF. -/
theorem test_checksum_longest : checksum 0x7F 64 (List.replicate 64 0xFF) = 0x7F := by decide

/-! ### The byte operations: the examples of R112 to R121 -/

theorem test_syncHit : after (exec .syncHit { State.reset with now := 5000 }) (fun t => (t.stage, t.deadline)) =
    some (.awaitingType, 105000) := by decide
theorem test_syncMiss : after (exec (.syncMiss 0x01) State.reset) (fun t => (t.stage, t.deadline, t.trace)) =
    some (.awaitingMagic, 0, [(0, .drop .badMagic)]) := by decide
theorem test_typeByte :
    after (exec (.typeByte 0x01) { inStage .awaitingType 0 0 0 with now := 5010 }) (fun t => (t.ptype, t.stage, t.deadline)) =
    some (0x01, .awaitingLength, 105010) := by decide
theorem test_lenZero :
    after (exec .lenZero { inStage .awaitingLength 0x09 0 0 with now := 5020 })
      (fun t => (t.plen, t.fill, t.stage, t.deadline)) = some (0, 0, .awaitingChecksum, 105020) := by decide
theorem test_lenOk :
    after (exec (.lenOk 0x05) { inStage .awaitingLength 0x01 0 0 with now := 5020 })
      (fun t => (t.plen, t.fill, t.stage, t.deadline)) = some (5, 0, .awaitingPayload, 105020) := by decide
theorem test_lenOver :
    after (exec (.lenOver 0x41) (inStage .awaitingLength 0x01 0 0)) (fun t => (t.stage, t.ptype, t.plen, t.trace)) =
    some (.awaitingMagic, 0, 0, [(0, .drop .oversize)]) := by decide
/-- V23: an oversize length byte equal to the magic byte starts no frame. -/
theorem test_lenOver_magic_value :
    after (step (offered (inStage .awaitingLength 0x01 0 0) 0xAA (tick 0))) (fun t => (t.stage, t.trace)) =
    some (.awaitingMagic, [(0, .drop .oversize)]) := by decide
theorem test_pay :
    after (exec (.pay 0x12) { inStage .awaitingPayload 0x01 5 1 with buf := [(0, 0x34)], deadline := 7 })
      (fun t => (t.buf.read 0, t.buf.read 1, t.fill, t.stage, t.deadline)) =
    some (0x34, 0x12, 2, .awaitingPayload, 7) := by decide
/-- V26: the magic byte is stored as any other payload byte. -/
theorem test_pay_magic_value :
    after (step (offered (inStage .awaitingPayload 0xAA 2 0) 0xAA (tick 0))) (fun t => (t.buf, t.fill, t.stage)) =
    some ([(0, 0xAA)], 1, .awaitingPayload) := by decide
theorem test_payLast :
    after (exec (.payLast 0x05) (inStage .awaitingPayload 0x01 5 4)) (fun t => (t.buf.read 4, t.fill, t.stage)) =
    some (0x05, 5, .awaitingChecksum) := by decide
/-- V24: the last cell of the buffer. -/
theorem test_payLast_last_cell :
    after (exec (.payLast 0xFF) (inStage .awaitingPayload 0x7F 64 63)) (fun t => (t.buf, t.fill, t.stage)) =
    some ([(63, 0xFF)], 64, .awaitingChecksum) := by decide
/-- R120 and S2, the first report included. -/
theorem test_csumOk :
    after (step (offered frameS2 0x51 (tick 0))) (fun t => (t.stage, t.ptype, t.fill, t.trace)) =
    some (.awaitingMagic, 0, 0,
      [(0, .deliver 0x01 5 [0x34, 0x12, 0x00, 0x00, 0x05]), (0, .mouseReport 0x05 0x1234 0x0000)]) := by decide
/-- V57: the wakeup precedes the length test. -/
theorem test_csumOk_suspended :
    after (step (offered (inStage .awaitingChecksum 0x01 0 0) 0x01 ⟨true, 0, [], true, true⟩)) (fun t => (t.dstage, t.trace)) =
    some (.idle, [(0, .deliver 0x01 0 []), (0, .wakeReq), (0, .drop .undersized)]) := by decide
theorem test_csumBad :
    after (exec (.csumBad 0x50) frameS2) (fun t => (t.stage, t.ptype, t.fill, t.trace)) =
    some (.awaitingMagic, 0, 0, [(0, .drop .badChecksum)]) := by decide
/-- V27 and V62: a failing byte equal to the magic byte starts no frame, and no wakeup is requested. -/
theorem test_csumBad_magic_value :
    after (step (offered frameS2 0xAA ⟨true, 0, [], true, true⟩)) (fun t => (t.stage, t.trace)) =
    some (.awaitingMagic, [(0, .drop .badChecksum)]) := by decide

/-! ### The time operations -/

/-- V42: nothing at the deadline, the drop one unit later. -/
theorem test_wdExpire_boundary :
    after (step { frameS2 with script := [tick 100000] }) (fun t => (t.stage, t.trace)) = some (.awaitingChecksum, []) := by
  decide
theorem test_wdExpire_late :
    after (step { frameS2 with script := [tick 100001] }) (fun t => (t.stage, t.plen, t.trace)) =
    some (.awaitingMagic, 0, [(100001, .drop .timeout)]) := by decide
/-- The example of R162. -/
theorem test_burstNext :
    after (exec .burstNext { inBurst 1 with now := 15030 }) (fun t => (t.dSent, t.dDeadline, t.trace)) =
    some (2, 25030, [(15030, .mouseReport 5 0x1234 0)]) := by decide
/-- V60: one burst operation, however late the step. -/
theorem test_burstNext_sparse :
    after (step { inBurst 1 with script := [tick 50000] }) (fun t => (t.dstage, t.dSent, t.dDeadline, t.trace)) =
    some (.burst, 2, 60000, [(50000, .mouseReport 5 0x1234 0)]) := by decide
/-- The example of R163. -/
theorem test_burstEnd :
    after (exec .burstEnd (inBurst 3)) (fun t => (t.dstage, t.dSent, t.trace)) = some (.idle, 0, []) := by decide
/-- R27, V61: a byte offered during a burst stays offered, and the sink is not asked again. -/
theorem test_burst_holds_byte :
    after (step { inBurst 3 with rx := [0xAA], script := [⟨true, 10000, [], false, false⟩] })
      (fun t => (t.dstage, t.rx, t.stage)) = some (.idle, [0xAA], .awaitingMagic) := by decide

/-! ### The frame commands -/

/-- V54: no clamp, no mask, the sixth byte ignored. -/
theorem test_mouse :
    after (exec (.mouse [0xFF, 0xFF, 0x00, 0x80, 0xFF, 0x99]) { State.reset with devReady := true })
      (fun t => (t.dstage, t.dSent, t.dDeadline, t.trace)) =
    some (.burst, 1, 10000, [(0, .mouseReport 0xFF 0xFFFF 0x8000)]) := by decide
/-- V51. -/
theorem test_mouse_undersized :
    after (exec (.mouse [0x34, 0x12, 0x00, 0x00]) { State.reset with devReady := true }) (fun t => (t.dstage, t.trace)) =
    some (.idle, [(0, .drop .undersized)]) := by decide
/-- V53. -/
theorem test_keyboard :
    after (exec (.keyboard [0xFF, 1, 2, 3, 4, 5, 6, 7, 8]) { State.reset with devReady := true }) (fun t => t.trace) =
    some [(0, .kbdReport 0xFF ⟨1, 2, 3, 4, 5, 6⟩)] := by decide
/-- V56. -/
theorem test_keyboard_not_ready :
    after (exec (.keyboard [2, 4, 0, 0, 0, 0, 0]) State.reset) (fun t => t.trace) = some [(0, .drop .notReady)] := by decide
/-- R161: the eight rows of `RSVD`. -/
theorem test_reserved :
    after (exec (.rsvd00 [1]) State.reset) (·.trace) = some [(0, .drop .reserved)] ∧
    after (exec (.rsvd03 [1]) State.reset) (·.trace) = some [(0, .drop .reserved)] ∧
    after (exec (.rsvd0407 1 [1]) State.reset) (·.trace) = some [(0, .drop .reserved)] ∧
    after (exec (.rsvd080F 1 [1]) State.reset) (·.trace) = some [(0, .drop .reserved)] := by decide
theorem test_reserved_high :
    after (exec (.rsvd101F 1 [1]) State.reset) (·.trace) = some [(0, .drop .reserved)] ∧
    after (exec (.rsvd203F 1 [1]) State.reset) (·.trace) = some [(0, .drop .reserved)] ∧
    after (exec (.rsvd407F 1 [1]) State.reset) (·.trace) = some [(0, .drop .reserved)] ∧
    after (exec (.rsvd80FF 1 [1]) State.reset) (·.trace) = some [(0, .drop .reserved)] := by decide
/-- V58: a wakeup for a reserved type. -/
theorem test_reserved_suspended :
    after (step (offered { inStage .awaitingChecksum 0x03 3 3 with buf := [(0, 1), (1, 2), (2, 3)] } 0x0C
      ⟨true, 0, [], false, true⟩)) (·.trace) =
    some [(0, .deliver 0x03 3 [1, 2, 3]), (0, .wakeReq), (0, .drop .reserved)] := by decide

/-! ### Placing a table word -/

theorem test_placed_byte :
    after (step (State.reset.withFetchWord 8 0xAA)) (·.stage) = some .awaitingType ∧
    after (step (State.reset.withFetchWord 8 0x00)) (·.stage) = some .awaitingChecksum := by decide
theorem test_placed_frames :
    after (step (State.reset.withFetchWord 16 0xAA01)) (·.trace) =
      some [(0, .deliver 0x01 0 []), (0, .drop .undersized)] ∧
    after (step (State.reset.withFetchWord 16 0xAA80)) (·.trace) =
      some [(0, .deliver 0x80 0 []), (0, .drop .reserved)] := by decide
/-- A word with a length byte above `{magic, type}`: the payload is zeros. -/
theorem test_placed_frame_with_length :
    after (step (State.reset.withFetchWord 24 0x03AA06)) (·.trace) =
      some [(0, .deliver 0x06 3 [0, 0, 0]), (0, .drop .reserved)] := by decide

/-! ### The notation of R89 -/

/-- P1 and P2: the bytes the spec writes beside `MOUSE`, `KEY`, `FRAME` and `BADSUM`. -/
theorem test_stream_bytes :
    (StreamLine.mouse 0x4000 0x3FFF 0x01).bytes = [0xAA, 0x01, 0x05, 0x00, 0x40, 0xFF, 0x3F, 0x01, 0x85] ∧
    (StreamLine.key 2 4 0 0 0 0 0).bytes = [0xAA, 0x02, 0x07, 0x02, 0x04, 0x00, 0x00, 0x00, 0x00, 0x00, 0x0F] ∧
    (StreamLine.frame 0x03 [1, 2, 3]).bytes = [0xAA, 0x03, 0x03, 0x01, 0x02, 0x03, 0x0C] ∧
    (StreamLine.badSum 0x02 [] 0x10).bytes = [0xAA, 0x02, 0x00, 0x10] := by decide
/-- `@t`, `DEV` and `WAIT`: the times and answers of the cycles, those for bytes a burst may hold included. -/
theorem test_stream_cycles :
    streamCycles 0 true false [⟨some 2, .raw [0xAA]⟩, ⟨none, .dev false true⟩, ⟨none, .raw [0x01, 0x00]⟩, ⟨none, .wait 1⟩] =
    [tick 1000, tick 1000, ⟨true, 0, [0xAA], true, false⟩, ⟨true, 0, [0x01], false, true⟩, ⟨true, 0, [0x00], false, true⟩,
      ⟨true, 1000, [], false, true⟩, ⟨true, 0, [], false, true⟩, ⟨true, 0, [], false, true⟩, ⟨true, 0, [], false, true⟩] := by
  decide

/-! ### Tables and ports -/

/-- R86: the type masks and matches of the ten FRAME rows. -/
def typeRows : List (Byte × Byte) :=
  [(0xFF, 0x01), (0xFF, 0x02), (0xFF, 0x00), (0xFF, 0x03), (0xFC, 0x04), (0xF8, 0x08), (0xF0, 0x10), (0xE0, 0x20),
   (0xC0, 0x40), (0x80, 0x80)]

/-- R86: the rows partition the 256 type values. -/
theorem test_type_rows_partition : ∀ t : Byte, typeRows.countP (fun r => typeMatches r.1 r.2 t) = 1 := by decide
/-- R21, R39: the stage codes, and a code that stands for no stage. -/
theorem test_stage_codes :
    [Stage.awaitingMagic, .awaitingType, .awaitingLength, .awaitingPayload, .awaitingChecksum].map
      (fun st => (stageCode st, stageOfCode (stageCode st))) =
    [(0, .awaitingMagic), (1, .awaitingType), (2, .awaitingLength), (3, .awaitingPayload), (4, .awaitingChecksum)] ∧
    stageOfCode 7 = .awaitingMagic ∧ dstageCode .idle = 0 ∧ dstageCode .burst = 1 := by decide
/-- R40, R42: the pulses of S2's delivering step. -/
theorem test_ports_mouse : after (step (offered frameS2 0x51 (tick 0))) (fun t =>
    let o := outPorts (offered frameS2 0x51 (tick 0)) t
    (o.rxReady, o.wakeReq, o.mouseValid, o.mouseX, o.pktLen)) = some (true, false, true, 0x1234, 5) := by decide
/-- R40: keycode slots, the first in the lowest bits. -/
theorem test_ports_keycodes : packKeycodes ⟨1, 2, 3, 4, 5, 6⟩ = 0x060504030201 := by decide

/-! ### Witnesses: for every statement with hypotheses, a state and operands that meet them -/

/-! States of every stage that satisfy the invariant, at the boundary values of the length and the fill count. -/

theorem test_inv_reset : Inv State.reset := by constructor <;> decide
theorem test_inv_type : Inv (inStage .awaitingType 0 0 0) := by constructor <;> decide
theorem test_inv_length : Inv (inStage .awaitingLength 0x7F 0 0) := by constructor <;> decide
theorem test_inv_payload : Inv (inStage .awaitingPayload 0x7F 64 62) := by constructor <;> decide
theorem test_inv_payload_last : Inv (inStage .awaitingPayload 0x7F 64 63) := by constructor <;> decide
theorem test_inv_checksum : Inv (inStage .awaitingChecksum 0x7F 64 64) := by constructor <;> decide
theorem test_inv_burst : Inv (inBurst 1) ∧ Inv (inBurst 2) ∧ Inv (inBurst 3) := by
  refine ⟨?_, ?_, ?_⟩ <;> constructor <;> decide
theorem test_inv_frameS2 : Inv frameS2 := by constructor <;> decide

/-- FrameDecodesToItsCommand: the longest payload. -/
theorem test_witness_frame : (Instr.rsvd80FF 0x7F (List.replicate 64 0xFF)).format = .frame ∧
    (Instr.rsvd80FF 0x7F (List.replicate 64 0xFF)).wf = true ∧ (Instr.mouse []).wf = true := by decide
/-- ExactlyOneByteRowApplies: a row at each end of the legal lengths. -/
theorem test_witness_row : (Instr.lenOk 64).wf = true ∧ rowApplies ⟨.awaitingLength, false, 0⟩ (.lenOk 64) = true ∧
    encode (.lenOk 64) = [64] ∧ (Instr.lenOver 65).wf = true ∧
    rowApplies ⟨.awaitingLength, false, 0⟩ (.lenOver 65) = true ∧ encode (.lenOver 65) = [65] := by decide
/-- ByteOperationSelectedByStageAndByte and the clauses on selection: each row's premises, in the states above. -/
theorem test_witness_selection :
    (inStage .awaitingPayload 0x7F 64 62).fill.toNat + 1 < (inStage .awaitingPayload 0x7F 64 62).plen.toNat ∧
    (inStage .awaitingPayload 0x7F 64 63).fill.toNat + 1 = (inStage .awaitingPayload 0x7F 64 63).plen.toNat ∧
    frameS2.stage = .awaitingChecksum ∧ frameS2.plen.toNat ≤ 64 ∧
    (0x51 : Byte) = checksum frameS2.ptype frameS2.plen (frameS2.buf.readList frameS2.plen.toNat) ∧
    (0x50 : Byte) ≠ checksum frameS2.ptype frameS2.plen (frameS2.buf.readList frameS2.plen.toNat) := by decide
/-- Lengths at the boundaries of the three classes. -/
theorem test_witness_lengths : 1 ≤ (1 : Byte).toNat ∧ (64 : Byte).toNat ≤ 64 ∧ 65 ≤ (65 : Byte).toNat ∧
    65 ≤ (255 : Byte).toNat := by decide
/-- InvalidFramesRejectedByName. -/
theorem test_witness_rejected : (0xAB : Byte) ≠ 0xAA ∧ 64 < (65 : Byte).toNat ∧ (List.replicate 64 (0 : Byte)).length ≤ 64 ∧
    (0xBE : Byte) ≠ checksum 0x7F (lengthByte (List.replicate 64 0)) (List.replicate 64 0) := by decide
/-- ChecksumOrderAndSensitivity. -/
theorem test_witness_checksum : [(1 : Byte), 2, 3].Perm [3, 2, 1] ∧ 2 < [(1 : Byte), 2, 3].length ∧
    [(1 : Byte), 2, 3][2] ≠ 4 ∧ (1 : Byte) ≠ 2 := by decide
/-- PayloadByteAppended, LastPayloadByteAppended and AccessOutsideBufferFaults: the last cell, and the first index beyond. -/
theorem test_witness_fill : (inStage .awaitingPayload 0x7F 64 63).buf.wf = true ∧
    (inStage .awaitingPayload 0x7F 64 63).fill.toNat < 64 ∧ 64 ≤ (inStage .awaitingPayload 0x7F 64 64).fill.toNat ∧
    64 < (inStage .awaitingChecksum 0x7F 65 0).plen.toNat ∧
    (inStage .awaitingChecksum 0x7F 64 64).plen.toNat ≤ 64 := by decide
/-- BurstNextEmitsLatchedReport. -/
theorem test_witness_burst_count : (inBurst 2).dSent.toNat < 3 ∧ ¬ (inBurst 3).dSent.toNat < 3 := by decide
/-- MouseFieldsLittleEndian, MouseBeginsBurst, MouseDroppedWhenShortOrNotReady, KeyboardEmitsOneReport: the least lengths. -/
theorem test_witness_payload_lengths : 5 ≤ [(0 : Byte), 0, 0, 0, 0].length ∧ [(0 : Byte), 0, 0, 0].length < 5 ∧
    7 ≤ [(0 : Byte), 0, 0, 0, 0, 0, 0].length ∧ [(0 : Byte), 0, 0, 0, 0, 0].length < 7 ∧ State.reset.devReady = false ∧
    ({ State.reset with devReady := true } : State).devReady = true := by decide
/-- ReservedTypesIgnored, DispatcherBranchesOnType. -/
theorem test_witness_types : (0x00 : Byte) ≠ 0x01 ∧ (0x00 : Byte) ≠ 0x02 ∧ (0x03 : Byte) ≠ 0x02 ∧
    isReserved (.rsvd00 []) = true ∧ isReserved (.rsvd80FF 0 []) = true ∧ isReserved (.mouse []) = false := by decide
/-- WakeupRequestedBeforeCommand: a parser drop. -/
theorem test_witness_parser_drop : holds (exec (.csumBad 0) State.reset) (fun _ => true) = true := by decide

/-- StepRunsDecodedByteOperation at `now = deadline`: the window is still open. -/
theorem test_witness_byte_step : StepCycle (offered frameS2 0x51 (tick 100000)) ∧
    (opened (offered frameS2 0x51 (tick 100000))).dstage = .idle ∧
    (opened (offered frameS2 0x51 (tick 100000))).rx = [0x51] ∧
    wdExpired (opened (offered frameS2 0x51 (tick 100000))) = false ∧
    (byteCtx (opened (offered frameS2 0x51 (tick 100000)))).isSome = true := ⟨⟨by decide, by decide⟩, by decide⟩
/-- StepRunsDecodedByteOperation one unit later: the watchdog runs first. -/
theorem test_witness_byte_step_late : StepCycle (offered frameS2 0x51 (tick 100001)) ∧
    wdExpired (opened (offered frameS2 0x51 (tick 100001))) = true ∧
    holds (exec .wdExpire (opened (offered frameS2 0x51 (tick 100001)))) (fun u => (byteCtx u).isSome) = true :=
  ⟨⟨by decide, by decide⟩, by decide⟩
/-- StepRunsDueTimeOperations: an emission due, the end due, nothing due. -/
theorem test_witness_time_step :
    pauseOver (opened { inBurst 2 with script := [tick 10000] }) = true ∧
    pauseOver (opened { inBurst 3 with script := [tick 10000] }) = true ∧
    pauseOver (opened { inBurst 3 with script := [tick 9999] }) = false ∧
    wdExpired (opened { inBurst 3 with script := [tick 10000] }) = false ∧
    (opened { inBurst 3 with script := [tick 10000] }).dstage = .burst := by decide
theorem test_witness_time_step_cycle : StepCycle { inBurst 2 with script := [tick 10000] } ∧
    StepCycle { inBurst 3 with script := [tick 10000] } ∧ StepCycle { inBurst 3 with script := [tick 9999] } :=
  ⟨⟨by decide, by decide⟩, ⟨by decide, by decide⟩, ⟨by decide, by decide⟩⟩
/-- StepRunsDecodedFrameCommand: S2's checksum byte at the last moment of its window. -/
theorem test_witness_frame_command : Inv (offered frameS2 0x51 (tick 100000)) ∧
    StepCycle (offered frameS2 0x51 (tick 100000)) ∧ (offered frameS2 0x51 (tick 100000)).dstage = .idle ∧
    (offered frameS2 0x51 (tick 100000)).stage = .awaitingChecksum ∧
    (opened (offered frameS2 0x51 (tick 100000))).now ≤ (offered frameS2 0x51 (tick 100000)).deadline ∧
    (opened (offered frameS2 0x51 (tick 100000))).rx = [0x51] ∧
    [0x34, 0x12, 0x00, 0x00, 0x05] = (offered frameS2 0x51 (tick 100000)).buf.readList 5 ∧
    0x51 = checksum 0x01 5 [0x34, 0x12, 0x00, 0x00, 0x05] :=
  ⟨by constructor <;> decide, ⟨by decide, by decide⟩, by decide, by decide, by decide, by decide, by decide, by decide⟩
/-- LateByteExaminedAsMagic: the two classes of the late byte. -/
theorem test_witness_late_byte : Inv (offered frameS2 0xAA (tick 100001)) ∧ StepCycle (offered frameS2 0xAA (tick 100001)) ∧
    frameS2.dstage = .idle ∧ frameS2.stage ≠ .awaitingMagic ∧
    frameS2.deadline < (opened (offered frameS2 0xAA (tick 100001))).now ∧
    (opened (offered frameS2 0xAA (tick 100001))).rx = [0xAA] :=
  ⟨by constructor <;> decide, ⟨by decide, by decide⟩, by decide⟩
theorem test_witness_late_byte_other :
    Inv (offered frameS2 0x51 (tick 100001)) ∧ StepCycle (offered frameS2 0x51 (tick 100001)) ∧
    frameS2.deadline < (opened (offered frameS2 0x51 (tick 100001))).now ∧
    (opened (offered frameS2 0x51 (tick 100001))).rx = [0x51] :=
  ⟨by constructor <;> decide, ⟨by decide, by decide⟩, by decide⟩
/-- StalledFrameAbandoned. -/
theorem test_witness_stalled : Inv { frameS2 with script := [tick 100001] } ∧
    StepCycle { frameS2 with script := [tick 100001] } ∧ (opened { frameS2 with script := [tick 100001] }).rx = [] ∧
    frameS2.deadline < (opened { frameS2 with script := [tick 100001] }).now :=
  ⟨by constructor <;> decide, ⟨by decide, by decide⟩, by decide⟩
/-- BurstHoldsInput: a pause that is over, and one that is not. -/
theorem test_witness_burst_holds : Inv { inBurst 1 with rx := [0xAA], script := [tick 10000] } ∧
    StepCycle { inBurst 1 with rx := [0xAA], script := [tick 10000] } ∧
    (opened { inBurst 1 with rx := [0xAA], script := [tick 9999] }).now < (inBurst 1).dDeadline :=
  ⟨by constructor <;> decide, ⟨by decide, by decide⟩, by decide⟩
/-- BurstRunsToItsEnd: two emissions owed, three cycles. -/
theorem test_witness_burst_run : Inv { inBurst 1 with script := [tick 10000, tick 10000, tick 10000] } ∧
    [tick 10000, tick 10000].length + (inBurst 1).dSent.toNat = 3 ∧
    (∀ k ∈ [tick 10000, tick 10000, tick 10000], k.rstN = true) ∧
    (inBurst 1).dDeadline ≤ (inBurst 1).now + (tick 10000).advance ∧
    (∀ k ∈ [tick 10000, tick 10000], Config.pauseTicks ≤ k.advance) ∧
    timeFits ((inBurst 1).now + 10000 + ([tick 10000, tick 10000].map Cycle.advance).sum) = true :=
  ⟨by constructor <;> decide, by decide, by decide, by decide, by decide, by decide⟩
/-- FrameWithinWindowsDeliveredIffValid: V21 and its neighbour with a wrong checksum, every window used to the full. -/
theorem test_witness_frame_run :
    Inv { State.reset with rx := [0xAA, 0x09, 0x00, 0x09], script := [tick 0, tick 100000, tick 100000, tick 100000] } ∧
    [(0xAA : Byte), 0x09, 0x00, 0x09] = [0xAA, 0x09, lengthByte []] ++ [] ++ [0x09] ++ [] ∧
    (∀ k ∈ [tick 0, tick 100000, tick 100000, tick 100000], k.rstN = true) ∧
    (tick 100000).advance ≤ Config.timeoutTicks ∧ ([tick 100000].map Cycle.advance).sum ≤ Config.timeoutTicks ∧
    timeFits (0 + 0 + 100000 + 100000 + ([tick 100000].map Cycle.advance).sum) = true ∧
    (0x09 : Byte) = checksum 0x09 (lengthByte []) [] ∧ (0x08 : Byte) ≠ checksum 0x09 (lengthByte []) [] :=
  ⟨by constructor <;> decide, by decide, by decide, by decide, by decide, by decide, by decide⟩
/-- ResetCycleLoadsResetValues. -/
theorem test_witness_reset_cycle : (nextCycle { frameS2 with script := [⟨false, 1, [], true, false⟩] }).rstN = false ∧
    timeFits (opened { frameS2 with script := [⟨false, 1, [], true, false⟩] }).now = true := by decide
/-- StepRefusesExactlyWrappingTime: the last time that fits, and the first that does not. -/
theorem test_witness_time : timeFits (2 ^ 64 - 100001) = true ∧ timeFits (2 ^ 64 - 100000) = false := by decide

/-- StepKeepsInvariants, StepNeverStops: a step from a state of the invariant, with time that fits. -/
theorem test_witness_step : Inv (offered frameS2 0x51 (tick 0)) ∧
    holds (step (offered frameS2 0x51 (tick 0))) (fun t => decide (t.stage = .awaitingMagic)) = true ∧
    timeFits (opened (offered frameS2 0x51 (tick 0))).now = true := ⟨by constructor <;> decide, by decide⟩
/-- StepKeepsTraceLaws: a state with a trace and emissions owed. -/
theorem test_witness_trace :
    TraceInv { inBurst 1 with trace := [(0, .deliver 0x01 1 [7]), (0, .mouseReport 5 0x1234 0)], script := [tick 10000] } ∧
    Inv { inBurst 1 with trace := [(0, .deliver 0x01 1 [7]), (0, .mouseReport 5 0x1234 0)], script := [tick 10000] } ∧
    holds (step { inBurst 1 with
      trace := [(0, .deliver 0x01 1 [7]), (0, .mouseReport 5 0x1234 0)], script := [tick 10000] })
      (fun t => decide (t.trace.length = 3)) = true := by
  refine ⟨⟨by decide, by decide, ?_, by decide⟩, by constructor <;> decide, by decide⟩
  intro e he t l p h
  simp at he
  obtain rfl | rfl := he
  · cases h; decide
  · cases h
/-- DeliveryNeedsMatchingChecksum, ReportsComeFromPackets (a first report), AtMostOneActionOfEachKind, PortsCarryStepActions. -/
theorem test_witness_delivery : holds (step (offered frameS2 0x51 (tick 100000))) (fun t =>
    decide (.deliver 0x01 5 [0x34, 0x12, 0x00, 0x00, 0x05] ∈ stepActions (offered frameS2 0x51 (tick 100000)) t) &&
    decide (.mouseReport 5 0x1234 0 ∈ stepActions (offered frameS2 0x51 (tick 100000)) t)) = true := by decide
/-- ReportsComeFromPackets: a repeated mouse report, and a keyboard report (V18's payload). -/
theorem test_witness_reports :
    holds (step { inBurst 2 with script := [tick 10000] }) (fun t =>
      decide (.mouseReport 5 0x1234 0 ∈ stepActions { inBurst 2 with script := [tick 10000] } t)) = true ∧
    holds (step (offered (inStage .awaitingChecksum 0x02 7 7) 0x09 (tick 0))) (fun t =>
      decide (.kbdReport 0 ⟨0, 0, 0, 0, 0, 0⟩ ∈ stepActions (offered (inStage .awaitingChecksum 0x02 7 7) 0x09 (tick 0)) t)) =
        true := by decide
/-- WakeupExactlyWhenDeliveredSuspended (V57's step). -/
theorem test_witness_wakeup :
    holds (step (offered (inStage .awaitingChecksum 0x01 0 0) 0x01 ⟨true, 0, [], true, true⟩)) (fun t =>
      decide (.wakeReq ∈ stepActions (offered (inStage .awaitingChecksum 0x01 0 0) 0x01 ⟨true, 0, [], true, true⟩) t)) =
        true := by decide
/-- SilentWithoutDelivery: a bad checksum (V25). -/
theorem test_witness_silent : frameS2.dstage = .idle ∧ holds (step (offered frameS2 0x50 (tick 0))) (fun t =>
    (stepActions (offered frameS2 0x50 (tick 0)) t).all (fun a => !isDeliver a) &&
    decide (t.trace = [(0, .drop .badChecksum)])) = true := by decide
/-- DeadRegistersUnobservable: two reset states that differ in every dead register, and a step. -/
theorem test_witness_dead : Inv { State.reset with script := [tick 0], rx := [0xAA] } ∧
    Inv { State.reset with script := [tick 0], rx := [0xAA], buf := [(3, 9)], deadline := 8, dX := 7 } ∧
    Equiv { State.reset with script := [tick 0], rx := [0xAA] }
      { State.reset with script := [tick 0], rx := [0xAA], buf := [(3, 9)], deadline := 8, dX := 7 } ∧
    holds (step { State.reset with script := [tick 0], rx := [0xAA] }) (fun t => decide (t.stage = .awaitingType)) = true :=
  ⟨by constructor <;> decide, by constructor <;> decide,
    ⟨rfl, rfl, rfl, rfl, rfl, rfl, by decide, by decide, by decide, by constructor <;> rfl⟩, by decide⟩
/-- DeadlineArmedByFourOperations, FillCountWriters, BufferWrittenByPayloadOperationsOnly, OperationsRespectOwnership: an
operation of each clause gives a next state. -/
theorem test_witness_writers : holds (exec .syncHit State.reset) (fun _ => true) = true ∧
    holds (exec (.pay 1) (inStage .awaitingPayload 0x7F 64 62)) (fun _ => true) = true ∧
    holds (exec (.payLast 1) (inStage .awaitingPayload 0x7F 64 63)) (fun _ => true) = true ∧
    holds (exec .lenZero State.reset) (fun _ => true) = true ∧ holds (exec .burstEnd State.reset) (fun _ => true) = true ∧
    holds (exec (.mouse []) State.reset) (fun _ => true) = true := by decide
/-- DropEffectsByCause: an operation whose one action is the drop, for each group of causes. -/
theorem test_witness_drops :
    (∃ t, exec (.syncMiss 1) State.reset = .next t ∧ Emitted State.reset t [.drop .badMagic]) ∧
    (∃ t, exec .wdExpire State.reset = .next t ∧ Emitted State.reset t [.drop .timeout]) ∧
    (∃ t, exec (.mouse []) State.reset = .next t ∧ Emitted State.reset t [.drop .undersized]) :=
  ⟨⟨_, rfl, rfl⟩, ⟨_, rfl, rfl⟩, ⟨_, rfl, rfl⟩⟩
/-- DeviceAnswersMatterOnlyAtDelivery: a step that hands nothing over. -/
theorem test_witness_answers : (offered frameS2 0x50 (tick 0)).script = tick 0 :: [] ∧
    holds (step (offered frameS2 0x50 (tick 0))) (fun t =>
      (stepActions (offered frameS2 0x50 (tick 0)) t).all (fun a => !isDeliver a)) = true := by decide
/-- PortBitPositions: the last payload byte of the port. -/
theorem test_witness_port : 63 < (List.replicate 64 (1 : Byte)).length ∧ (List.replicate 64 (1 : Byte)).length ≤ 64 := by
  decide

/-- ChecksumIsSumModulo256: the shortest, the longest legal and the longest payload; ChecksumOfOtherLengths. -/
theorem test_witness_checksum_lengths : ([] : List Byte).length = (0 : Byte).toNat ∧
    (List.replicate 64 (7 : Byte)).length = (0x40 : Byte).toNat ∧
    (List.replicate 255 (7 : Byte)).length = (0xFF : Byte).toNat ∧ ([] : List Byte).length ≠ (1 : Byte).toNat :=
  ⟨rfl, List.length_replicate, List.length_replicate, by decide⟩
/-- RunSettlesOnceInputEnds: a burst with two emissions owed, a byte waiting, and no late cycle more than needed. -/
theorem test_witness_settles :
    Inv { inBurst 1 with rx := [0xAA], script := tick 10000 :: (List.replicate 7 (tick 100001) ++ []) } ∧
    (∀ k ∈ tick 10000 :: List.replicate 7 (tick 100001), Silent k) ∧
    (inBurst 1).deadline ≤ (inBurst 1).now + (tick 10000).advance + Config.timeoutTicks ∧
    (inBurst 1).dDeadline ≤ (inBurst 1).now + (tick 10000).advance + Config.pauseTicks ∧
    4 * [(0xAA : Byte)].length + 3 ≤ (List.replicate 7 (tick 100001)).countP isLate ∧
    timeFits ((inBurst 1).now + (tick 10000).advance + ((List.replicate 7 (tick 100001)).map Cycle.advance).sum) = true :=
  ⟨by constructor <;> decide, by unfold Silent; decide, by decide, by decide, by decide, by decide⟩
/-- R186: a reset state whose stream is still to come has not settled; one without a stream has. -/
theorem test_settled_needs_stream_consumed :
    ¬ Settled { State.reset with script := [tick 0, ⟨true, 1, [0xAA], true, false⟩] } ∧ Settled State.reset :=
  ⟨fun h => absurd h.arrived (by decide), by constructor <;> decide⟩
/-- R9: `KEY_SLOTS` and `KBD_MIN_LEN` agree (a modifier byte and the keycodes); `COORD_MAX` bounds no field (R158). -/
theorem test_constants : Config.kbdMinLen = 1 + Config.keySlots ∧
    (keycodeSlots (kbdKeycodes [0x02, 0x04, 0x05, 0x06, 0x07, 0x08, 0x09])).toList = [0x04, 0x05, 0x06, 0x07, 0x08, 0x09] ∧
    coordInRange 0x7FFF = true ∧ coordInRange (mouseX [0x00, 0x80, 0x00, 0x00, 0x00]) = false := by decide
/-- R200: the codes and classes of the table, row by row. -/
theorem test_cause_codes :
    [Cause.badMagic, .oversize, .badChecksum, .timeout, .undersized, .notReady, .reserved].map causeCode =
      [1, 2, 3, 4, 5, 6, 7] ∧
    [Cause.badMagic, .oversize, .badChecksum, .timeout, .undersized, .notReady, .reserved].map causeClass =
      [some .framing, some .framing, some .integrity, some .timeout, some .semantic, some .semantic, none] := by decide
/-- DropCauseNamesItsOperation: a drop of each of the seven causes, those of the dispatcher alone and through `CSUM_OK` (V21). -/
theorem test_witness_drop_causes :
    (∃ t, exec (.syncMiss 1) State.reset = .next t ∧ .drop .badMagic ∈ stepActions State.reset t) ∧
    (∃ t, exec (.lenOver 65) State.reset = .next t ∧ .drop .oversize ∈ stepActions State.reset t) ∧
    (∃ t, exec (.csumBad 1) State.reset = .next t ∧ .drop .badChecksum ∈ stepActions State.reset t) ∧
    (∃ t, exec .wdExpire State.reset = .next t ∧ .drop .timeout ∈ stepActions State.reset t) ∧
    (∃ t, exec (.mouse []) State.reset = .next t ∧ .drop .undersized ∈ stepActions State.reset t) ∧
    (∃ t, exec (.keyboard [0, 0, 0, 0, 0, 0, 0]) State.reset = .next t ∧ .drop .notReady ∈ stepActions State.reset t) ∧
    (∃ t, exec (.csumOk 9) (inStage .awaitingChecksum 0x09 0 0) = .next t ∧
      .drop .reserved ∈ stepActions (inStage .awaitingChecksum 0x09 0 0) t) :=
  ⟨⟨_, rfl, by decide⟩, ⟨_, rfl, by decide⟩, ⟨_, rfl, by decide⟩, ⟨_, rfl, by decide⟩, ⟨_, rfl, by decide⟩,
    ⟨_, rfl, by decide⟩, ⟨_, rfl, by decide⟩⟩
/-- R89 with log 24: an `@t` before the time reached does not turn time back; the line begins at the time reached. -/
theorem test_stream_early_time :
    streamCycles 5 true false [⟨some 3, .raw [0xAA]⟩] = [⟨true, 0, [0xAA], true, false⟩] ∧
    (streamCycles 5 true false [⟨some 7, .raw [0xAA]⟩]).length = 3 := by decide
/-- DropCauseNamesItsOperation, its second half: each of the seven causes in a step from a state of the invariant, at a boundary value where the
condition has one. -/
theorem test_witness_drop_conditions_inv : Inv (offered State.reset 0xAB (tick 0)) ∧
    Inv (offered (inStage .awaitingLength 1 0 0) 65 (tick 0)) ∧ Inv (offered frameS2 0x50 (tick 100000)) ∧
    Inv { frameS2 with script := [tick 100001] } ∧
    Inv { offered (inStage .awaitingChecksum 1 4 4) 5 (tick 0) with script := [⟨true, 0, [], false, true⟩] } ∧
    Inv { frameS2 with rx := [0x51], script := [⟨true, 0, [], false, true⟩] } ∧
    Inv (offered (inStage .awaitingChecksum 9 0 0) 9 (tick 0)) := by
  refine ⟨?_, ?_, ?_, ?_, ?_, ?_, ?_⟩ <;> constructor <;> decide
theorem test_witness_drop_conditions :
    after (step (offered State.reset 0xAB (tick 0))) (stepActions (offered State.reset 0xAB (tick 0))) =
      some [.drop .badMagic] ∧
    after (step (offered (inStage .awaitingLength 1 0 0) 65 (tick 0)))
      (stepActions (offered (inStage .awaitingLength 1 0 0) 65 (tick 0))) = some [.drop .oversize] ∧
    after (step (offered frameS2 0x50 (tick 100000))) (stepActions (offered frameS2 0x50 (tick 100000))) =
      some [.drop .badChecksum] ∧
    after (step { frameS2 with script := [tick 100001] }) (stepActions { frameS2 with script := [tick 100001] }) =
      some [.drop .timeout] ∧
    after (step { offered (inStage .awaitingChecksum 1 4 4) 5 (tick 0) with script := [⟨true, 0, [], false, true⟩] })
      (stepActions { offered (inStage .awaitingChecksum 1 4 4) 5 (tick 0) with script := [⟨true, 0, [], false, true⟩] }) =
      some [.deliver 1 4 [0, 0, 0, 0], .wakeReq, .drop .undersized] ∧
    after (step { frameS2 with rx := [0x51], script := [⟨true, 0, [], false, true⟩] })
      (stepActions { frameS2 with rx := [0x51], script := [⟨true, 0, [], false, true⟩] }) =
      some [.deliver 1 5 [0x34, 0x12, 0, 0, 5], .wakeReq, .drop .notReady] ∧
    after (step (offered (inStage .awaitingChecksum 9 0 0) 9 (tick 0)))
      (stepActions (offered (inStage .awaitingChecksum 9 0 0) 9 (tick 0))) = some [.deliver 9 0 [], .drop .reserved] := by
  decide

end Sys2Proof.Tests
end

section
/-! The value of `checksum` (40_checksum.md): the rule the statements of that family go through. -/

namespace Sys2Proof.Proofs

/-- R100, and for a payload of another length the model's choice (log 25): the value is the exact sum, reduced once. -/
theorem checksum_toNat (t n : Byte) (p : List Byte) :
    (checksum t n p).toNat = (t.toNat + n.toNat + (p.map BitVec.toNat).sum) % 256 := by
  rw [checksum, BitVec.toNat_ofNat]
  exact Nat.mod_mod _ 256

/-- R101: a frame without payload has its type as checksum, since neither length nor payload adds to it. -/
theorem checksum_zero_nil (t : Byte) : checksum t 0 [] = t := by
  apply BitVec.eq_of_toNat_eq
  calc (checksum t 0 []).toNat = t.toNat % 256 := checksum_toNat t 0 []
    _ = t.toNat := Nat.mod_eq_of_lt t.isLt

/-- Settles O6: the value of the checksum at a payload of the stated length, and at the empty one. -/
theorem checksumIsSumModulo256 : Obligations.ChecksumIsSumModulo256 :=
  ⟨fun t n p _ => checksum_toNat t n p, checksum_zero_nil⟩

end Sys2Proof.Proofs
end

section
/-! The byte operations of the frame parser (41_frame_parser.md): when one is selected, what its registers become, and
the frame it leaves. -/

namespace Sys2Proof.Proofs

open Sys2Proof.Machine Sys2Proof.Safety Sys2Proof.Laws

/-! ### Selection (R84) -/

/-- Outside AwaitingChecksum the selection reads no byte of the buffer (R56), so it succeeds in every state,
whatever the length and fill registers hold. -/
theorem selects_iff_decodeByte {s : State} {st : Stage} {b : Byte} {i : Instr} (hs : s.stage = st)
    (hst : st ≠ .awaitingChecksum) :
    Selects s b i ↔ decodeByte ⟨st, moreDue s, checksum s.ptype s.plen []⟩ b = i := by
  subst hs
  have hctx : byteCtx s = some ⟨s.stage, moreDue s, checksum s.ptype s.plen []⟩ := by
    simp [byteCtx, checkedLength, hst, bufRead_of_le, Memory.readList]
  simp [Selects, hctx]

/-- AwaitingMagic: the byte is the magic byte or it is not. -/
theorem decodeByte_awaitingMagic (m : Bool) (e b : Byte) :
    decodeByte ⟨.awaitingMagic, m, e⟩ b = if b = 0xAA then .syncHit else .syncMiss b := by
  simp only [decodeByte, magicHit_iff]

/-- AwaitingLength: the three classes of a length byte. -/
theorem decodeByte_awaitingLength (m : Bool) (e b : Byte) :
    decodeByte ⟨.awaitingLength, m, e⟩ b =
      if b.toNat = 0 then .lenZero else if 64 < b.toNat then .lenOver b else .lenOk b := by
  simp only [decodeByte, lenZero_iff, lenOver_iff]

/-- AwaitingPayload: more payload is due after this byte, or it is the last. -/
theorem decodeByte_awaitingPayload (s : State) (e b : Byte) :
    decodeByte ⟨.awaitingPayload, moreDue s, e⟩ b =
      if s.fill.toNat + 1 < s.plen.toNat then .pay b else .payLast b := by
  simp only [decodeByte, moreDue_iff]

/-! ### Effects of the operations that write no payload byte (those of `PAY` and `PAY_LAST` stand in Laws) -/

theorem exec_syncHit (s : State) : exec .syncHit s = .next (armDeadline { s with stage := .awaitingType }) := rfl

theorem exec_syncMiss (b : Byte) (s : State) : exec (.syncMiss b) s = .next (dropMark .badMagic s) := rfl

theorem exec_typeByte (b : Byte) (s : State) :
    exec (.typeByte b) s = .next (armDeadline { s with ptype := b, stage := .awaitingLength }) := rfl

theorem exec_lenOk (b : Byte) (s : State) :
    exec (.lenOk b) s = .next (armDeadline { s with plen := b, fill := 0, stage := .awaitingPayload }) := rfl

/-! ### Frames (R45) -/

/-- A write of the parser's own registers and buffer reaches no dispatcher register, no input and no trace entry. -/
theorem parserWrite_frame (s : State) (st : Stage) (ty n : Byte) (f : BitVec 7) (m : Memory) (d : Nat) :
    let t : State := { s with stage := st, ptype := ty, plen := n, fill := f, buf := m, deadline := d }
    SameDispatcher s t ∧ SameEnvironment s t ∧ t.trace = s.trace :=
  ⟨⟨rfl, rfl, rfl, rfl, rfl, rfl⟩, ⟨rfl, rfl, rfl, rfl, rfl, rfl⟩, rfl⟩

/-- A header byte arms the deadline and writes header registers; the buffer is among what it leaves as it was. -/
theorem headerWrite_frame (s : State) (st : Stage) (ty n : Byte) (f : BitVec 7) :
    let t := armDeadline { s with stage := st, ptype := ty, plen := n, fill := f }
    SameBuffer s t ∧ SameDispatcher s t ∧ SameEnvironment s t ∧ t.trace = s.trace :=
  ⟨fun _ => rfl, parserWrite_frame s st ty n f s.buf _⟩

/-- A drop mark (R14) is one entry of the trace and changes nothing else. -/
theorem dropMark_frame (c : Cause) (s : State) :
    SameParser s (dropMark c s) ∧ SameBuffer s (dropMark c s) ∧ SameDispatcher s (dropMark c s) ∧
      SameEnvironment s (dropMark c s) ∧ Emitted s (dropMark c s) [.drop c] :=
  ⟨⟨rfl, rfl, rfl, rfl, rfl⟩, fun _ => rfl, ⟨rfl, rfl, rfl, rfl, rfl, rfl⟩, ⟨rfl, rfl, rfl, rfl, rfl, rfl⟩, rfl⟩

/-! ### The obligations -/

/-- Settles O9: the magic byte starts a frame. -/
theorem syncHitStartsFrame : Obligations.SyncHitStartsFrame := by
  refine ⟨fun s hs => ?_, fun s => ⟨_, exec_syncHit s, rfl, rfl, rfl, rfl, rfl, headerWrite_frame s _ _ _ _⟩⟩
  rw [selects_iff_decodeByte hs (by decide), decodeByte_awaitingMagic, if_pos rfl]

/-- Settles O10: any other byte outside a frame leaves a mark only. -/
theorem syncMissChangesNoRegister : Obligations.SyncMissChangesNoRegister := by
  refine ⟨fun b s hs hb => ?_, fun b s => ⟨_, exec_syncMiss b s, dropMark_frame .badMagic s⟩⟩
  rw [selects_iff_decodeByte hs (by decide), decodeByte_awaitingMagic, if_neg hb]

/-- Settles O11: the second byte is the type, whatever it is. -/
theorem typeByteStoredUnchanged : Obligations.TypeByteStoredUnchanged :=
  ⟨fun _ _ hs => (selects_iff_decodeByte hs (by decide)).2 rfl,
    fun b s => ⟨_, exec_typeByte b s, rfl, rfl, rfl, rfl, rfl, headerWrite_frame s _ _ _ _⟩⟩

/-- Settles O13: a length byte from 1 to 64 is neither zero nor above the buffer's capacity. -/
theorem legalLengthOpensPayload : Obligations.LegalLengthOpensPayload := by
  refine ⟨fun b s hs h1 h64 => ?_,
    fun b s => ⟨_, exec_lenOk b s, rfl, rfl, rfl, rfl, rfl, headerWrite_frame s _ _ _ _⟩⟩
  rw [selects_iff_decodeByte hs (by decide), decodeByte_awaitingLength, if_neg (by omega), if_neg (by omega)]

/-- Settles O15: the canonical form makes the byte written the byte read back, and 7 bits hold the new fill count. -/
theorem payloadByteAppended : Obligations.PayloadByteAppended := by
  refine ⟨fun b s hs hmore => ?_, fun b s hwf hfill => ?_⟩
  · rw [selects_iff_decodeByte hs (by decide), decodeByte_awaitingPayload, if_pos hmore]
  · exact ⟨_, exec_pay b hfill, read_write_same hwf, fun _ ha => read_write_other ha, fill_succ hfill,
      rfl, rfl, rfl, rfl, parserWrite_frame s _ _ _ _ _ _⟩

/-- Settles O16: as `PAY`, and where the byte was the last one due the new fill count is the declared length. -/
theorem lastPayloadByteAppended : Obligations.LastPayloadByteAppended := by
  refine ⟨fun b s hs hlast => ?_, fun b s hwf hfill => ?_⟩
  · rw [selects_iff_decodeByte hs (by decide), decodeByte_awaitingPayload, if_neg (by omega)]
  · exact ⟨_, exec_payLast b hfill, read_write_same hwf, fun _ ha => read_write_other ha, fill_succ hfill,
      fun hlast => (fill_succ hfill).trans hlast, rfl, rfl, rfl, rfl, parserWrite_frame s _ _ _ _ _ _⟩

end Sys2Proof.Proofs
end

section
/-! The dispatcher (43_dispatcher.md): the command a type selects, the fields of a payload, and what the commands leave
unchanged. -/

namespace Sys2Proof.Proofs

open Sys2Proof.Machine Sys2Proof.Safety Sys2Proof.Laws

/-! ### The command a type selects (R86, R154) -/

/-- A row whose mask is all eight bits is the comparison of R154. -/
theorem typeMatches_allBits (k t : Byte) : typeMatches 0xFF k t = true ↔ t = k := by
  rw [typeMatches, decide_eq_true_eq, show (0xFF : Byte) = BitVec.allOnes 8 from rfl, BitVec.and_allOnes]

theorem decodeCommand_mouse (p : List Byte) : decodeCommand 0x01 p = .mouse p := rfl

theorem decodeCommand_keyboard (p : List Byte) : decodeCommand 0x02 p = .keyboard p := rfl

/-- The rows that remain after the first two are the eight `RSVD` rows. -/
theorem isReserved_decodeCommand {t : Byte} (p : List Byte) (h1 : t ≠ 0x01) (h2 : t ≠ 0x02) :
    isReserved (decodeCommand t p) = true := by
  rw [decodeCommand, if_neg (mt (typeMatches_allBits _ _).1 h1), if_neg (mt (typeMatches_allBits _ _).1 h2)]
  simp only [apply_ite isReserved]
  simp only [isReserved, ite_self]

/-- R161: the eight `RSVD` rows share one meaning. -/
theorem exec_of_isReserved {i : Instr} (s : State) (h : isReserved i = true) :
    exec i s = .next (dropMark .reserved s) := by
  cases i with
  | rsvd00 | rsvd03 | rsvd0407 | rsvd080F | rsvd101F | rsvd203F | rsvd407F | rsvd80FF => rfl
  | _ => cases h

theorem exec_mouse (p : List Byte) (s : State) : exec (.mouse p) s = execMouse p s := rfl

theorem exec_keyboard (p : List Byte) (s : State) : exec (.keyboard p) s = execKeyboard p s := rfl

/-- R154: the dispatcher's comparisons and the table's masks select the same command. -/
theorem runCommand_eq_exec (t : Byte) (p : List Byte) (s : State) : runCommand t p s = exec (decodeCommand t p) s := by
  obtain ⟨rfl, h⟩ | ⟨rfl, h⟩ | ⟨h1, h2, h⟩ := runCommand_cases t p s
  · rw [h, decodeCommand_mouse, exec_mouse]
  · rw [h, decodeCommand_keyboard, exec_keyboard]
  · rw [h, exec_of_isReserved s (isReserved_decodeCommand p h1 h2)]

/-! ### The fields of a payload (R51, R77, R79) -/

theorem payloadByte_eq_getElem {p : List Byte} {i : Nat} (h : i < p.length) : payloadByte p i = p[i] :=
  List.getD_eq_getElem p 0 h

theorem littleEndian_toNat (lo hi : Byte) : (littleEndian lo hi).toNat = lo.toNat + 256 * hi.toNat := by
  rw [littleEndian, BitVec.toNat_append, ← Nat.shiftLeft_add_eq_or_of_lt lo.isLt, Nat.shiftLeft_eq]
  omega

theorem kbdKeycodes_eq {p : List Byte} (h : 7 ≤ p.length) : kbdKeycodes p = ⟨p[1], p[2], p[3], p[4], p[5], p[6]⟩ := by
  simp (disch := omega) only [kbdKeycodes, payloadByte_eq_getElem]

/-! ### Frames (R45) -/

/-- An action is one entry of the trace and changes nothing else (R181), as `dropMark_frame` says of a mark. -/
theorem emit_frame (a : Action) (s : State) :
    SameParser s (emit a s) ∧ SameBuffer s (emit a s) ∧ SameDispatcher s (emit a s) ∧ SameEnvironment s (emit a s) ∧
      Emitted s (emit a s) [a] :=
  ⟨⟨rfl, rfl, rfl, rfl, rfl⟩, fun _ => rfl, ⟨rfl, rfl, rfl, rfl, rfl, rfl⟩, ⟨rfl, rfl, rfl, rfl, rfl, rfl⟩, rfl⟩

/-! ### The obligations -/

/-- Settles O28: the chain of the dispatcher is `exec` of the decoded command, case by case on the type. -/
theorem dispatcherBranchesOnType : Obligations.DispatcherBranchesOnType := by
  refine fun t p s => ⟨runCommand_eq_exec t p s, ?_, ?_, fun h1 h2 => ?_⟩
  · rintro rfl; exact decodeCommand_mouse p
  · rintro rfl; exact decodeCommand_keyboard p
  · obtain ⟨hpar, hbuf, hdis, henv, hem⟩ := dropMark_frame .reserved s
    exact ⟨_, exec_of_isReserved s (isReserved_decodeCommand p h1 h2), hem, hpar, hbuf, hdis, henv⟩

/-- Settles O23: the first byte of each coordinate is its low byte, and a long enough payload has them all. -/
theorem mouseFieldsLittleEndian : Obligations.MouseFieldsLittleEndian := by
  refine fun p h => ⟨?_, ?_, payloadByte_eq_getElem h⟩
  · rw [mouseX, littleEndian_toNat, payloadByte_eq_getElem (by omega), payloadByte_eq_getElem (by omega)]
  · rw [mouseY, littleEndian_toNat, payloadByte_eq_getElem (by omega), payloadByte_eq_getElem (by omega)]

/-- Settles O25: the three branches of `KEYBOARD`, each one entry of the trace. -/
theorem keyboardEmitsOneReport : Obligations.KeyboardEmitsOneReport := by
  refine ⟨fun p s => runCommand_eq_exec 0x02 p s, fun p s => ?_⟩
  rw [exec_keyboard]
  obtain ⟨hl, h⟩ | ⟨hl, hr, h⟩ | ⟨hl, hr, h⟩ := execKeyboard_cases p s
  · exact ⟨fun _ _ => by omega, fun _ => ⟨_, h, dropMark_frame _ s⟩, fun _ _ => by omega⟩
  · exact ⟨fun _ hr' => by simp [hr] at hr', fun _ => by omega, fun _ _ => ⟨_, h, dropMark_frame _ s⟩⟩
  · rw [kbdModifiers, payloadByte_eq_getElem (show 0 < p.length by omega), kbdKeycodes_eq hl] at h
    exact ⟨fun _ _ => ⟨_, h, emit_frame _ s⟩, fun _ => by omega, fun _ hr' => by simp [hr] at hr'⟩

/-- Settles O27: every other type selects an `RSVD` row, and every such row leaves a mark only. -/
theorem reservedTypesIgnored : Obligations.ReservedTypesIgnored :=
  ⟨fun t p s h1 h2 => ⟨isReserved_decodeCommand p h1 h2, runCommand_eq_exec t p s⟩,
    fun _ s hi => ⟨_, exec_of_isReserved s hi, dropMark_frame .reserved s⟩⟩

end Sys2Proof.Proofs
end

section
/-! The checksum as a sum of bytes (40_checksum.md): the running sum of R103, and what it says of changed bytes. -/

namespace Sys2Proof.Proofs

/-- R102 item 1: the carries discarded one by one amount to the one reduction of R100. -/
theorem foldl_add_toNat (p : List Byte) (a : Byte) :
    (p.foldl (fun acc b => acc + b) a).toNat = (a.toNat + (p.map BitVec.toNat).sum) % 256 := by
  induction p generalizing a with
  | nil => simpa using (Nat.mod_eq_of_lt a.isLt).symm
  | cons b p ih => rw [List.foldl_cons, ih, BitVec.toNat_add, List.map_cons, List.sum_cons]; omega

theorem checksum_eq_foldl (t n : Byte) (p : List Byte) : checksum t n p = p.foldl (fun acc b => acc + b) (t + n) := by
  apply BitVec.eq_of_toNat_eq
  rw [checksum_toNat, foldl_add_toNat, BitVec.toNat_add]
  omega

/-- The checksum in the additive group of bytes, where a changed summand changes the sum. -/
theorem checksum_eq_sum (t n : Byte) (p : List Byte) : checksum t n p = t + n + p.sum := by
  rw [checksum_eq_foldl]
  induction p generalizing t with
  | nil => simp
  | cons b p ih => rw [List.foldl_cons, List.sum_cons, show t + n + b = (t + b) + n by ring, ih]; ring

/-- Settles O7. -/
theorem checksumIsRunningByteSum : Obligations.ChecksumIsRunningByteSum := checksum_eq_foldl

/-- Settles O8: a sum of a group does not see the order of its summands and sees every one of them. -/
theorem checksumOrderAndSensitivity : Obligations.ChecksumOrderAndSensitivity := by
  refine ⟨fun t n p q h => ?_, fun t n b p k hk hne heq => hne ?_, fun t u n p hne heq => hne ?_⟩
  · rw [checksum_eq_sum, checksum_eq_sum, h.sum_eq]
  · rw [checksum_eq_sum, checksum_eq_sum, List.sum_set', dif_pos hk, add_right_inj, add_eq_left] at heq
    exact neg_add_eq_zero.1 heq
  · rwa [checksum_eq_sum, checksum_eq_sum, add_left_inj, add_left_inj] at heq

/-- Settles O59: the value of the checksum does not depend on whether the length fits. -/
theorem checksumOfOtherLengths : Obligations.ChecksumOfOtherLengths := fun t n p _ => checksum_toNat t n p

end Sys2Proof.Proofs
end

section
/-! Frames as bytes (30_encoding.md): the decoder on a frame written out, the command of each type row, and the
selection of a byte operation. -/

namespace Sys2Proof.Proofs

open Sys2Proof.Machine Sys2Proof.Safety Sys2Proof.Laws

/-! ### The decoder of a frame (R70 to R75) -/

theorem lengthByte_toNat {p : List Byte} (h : p.length ≤ 64) : (lengthByte p).toNat = p.length := by
  rw [lengthByte, BitVec.toNat_ofNat]
  omega

theorem decodeFrame_badMagic {m : Byte} (bytes : List Byte) (h : m ≠ 0xAA) :
    decodeFrame (m :: bytes) = .rejected .badMagic := by
  simp only [decodeFrame, magicHit_iff, if_neg h]

/-- After the header only the length byte decides whether the body is read. -/
theorem decodeFrame_header (t n : Byte) (body : List Byte) :
    decodeFrame (0xAA :: t :: n :: body) = if 64 < n.toNat then .rejected .oversize else decodeBody t n body := by
  simp only [decodeFrame, magicHit_iff, lenOver_iff, if_true]

/-- The body of a frame whose length byte is honest. -/
theorem decodeBody_append (t c : Byte) {n : Byte} {p : List Byte} (rest : List Byte) (h : n.toNat = p.length) :
    decodeBody t n (p ++ c :: rest) =
      if c = checksum t n p then .ok (decodeCommand t p) rest else .rejected .badChecksum := by
  simp [decodeBody, h]

/-- R124: a payload of at most 64 bytes between its header and any byte `c` is a frame exactly if `c` is its checksum. -/
theorem decodeFrame_append (t c : Byte) {p : List Byte} (rest : List Byte) (h : p.length ≤ 64) :
    decodeFrame ([0xAA, t, lengthByte p] ++ p ++ [c] ++ rest) =
      if c = checksum t (lengthByte p) p then .ok (decodeCommand t p) rest else .rejected .badChecksum := by
  have hlen := lengthByte_toNat h
  rw [show [0xAA, t, lengthByte p] ++ p ++ [c] ++ rest = 0xAA :: t :: lengthByte p :: (p ++ c :: rest) by simp,
    decodeFrame_header, if_neg (by omega), decodeBody_append t c rest hlen]

theorem decodeFrame_encodeFrame (t : Byte) {p : List Byte} (rest : List Byte) (h : p.length ≤ 64) :
    decodeFrame (encodeFrame t p ++ rest) = .ok (decodeCommand t p) rest := by
  rw [encodeFrame, decodeFrame_append t _ rest h, if_pos rfl]

/-! ### The command of each type row (R86) -/

/-- The masks of the five rows that leave low bits free select blocks of consecutive types. -/
theorem typeMatches_block : ∀ t : Byte,
    (typeMatches 0xFC 0x04 t = true ↔ t.toNat / 4 = 1) ∧ (typeMatches 0xF8 0x08 t = true ↔ t.toNat / 8 = 1) ∧
    (typeMatches 0xF0 0x10 t = true ↔ t.toNat / 16 = 1) ∧ (typeMatches 0xE0 0x20 t = true ↔ t.toNat / 32 = 1) ∧
    (typeMatches 0xC0 0x40 t = true ↔ t.toNat / 64 = 1) := by
  decide

/-- The table's rows by the number of the type: four single types, then blocks that double in size. -/
theorem decodeCommand_eq (t : Byte) (p : List Byte) :
    decodeCommand t p =
      if t.toNat = 1 then .mouse p
      else if t.toNat = 2 then .keyboard p
      else if t.toNat = 0 then .rsvd00 p
      else if t.toNat = 3 then .rsvd03 p
      else if t.toNat / 4 = 1 then .rsvd0407 (t.extractLsb' 0 2) p
      else if t.toNat / 8 = 1 then .rsvd080F (t.extractLsb' 0 3) p
      else if t.toNat / 16 = 1 then .rsvd101F (t.extractLsb' 0 4) p
      else if t.toNat / 32 = 1 then .rsvd203F (t.extractLsb' 0 5) p
      else if t.toNat / 64 = 1 then .rsvd407F (t.extractLsb' 0 6) p
      else .rsvd80FF (t.extractLsb' 0 7) p := by
  obtain ⟨h4, h8, h16, h32, h64⟩ := typeMatches_block t
  simp only [decodeCommand, typeMatches_allBits, h4, h8, h16, h32, h64, ← BitVec.toNat_inj]
  rfl

/-- The number of a type written as the fixed bits of a row and its free bits. -/
theorem toNat_typeBits {v w : Nat} (fixed : BitVec v) (free : BitVec w) :
    (fixed ++ free).toNat = fixed.toNat * 2 ^ w + free.toNat := by
  rw [BitVec.toNat_append, ← Nat.shiftLeft_add_eq_or_of_lt free.isLt, Nat.shiftLeft_eq]

/-- R86: the type bits of a row's encoding select that row and come back as its free bits. -/
theorem decodeCommand_typeBits (p : List Byte) :
    (∀ t : BitVec 2, decodeCommand (0b000001#6 ++ t) p = .rsvd0407 t p) ∧
    (∀ t : BitVec 3, decodeCommand (0b00001#5 ++ t) p = .rsvd080F t p) ∧
    (∀ t : BitVec 4, decodeCommand (0b0001#4 ++ t) p = .rsvd101F t p) ∧
    (∀ t : BitVec 5, decodeCommand (0b001#3 ++ t) p = .rsvd203F t p) ∧
    (∀ t : BitVec 6, decodeCommand (0b01#2 ++ t) p = .rsvd407F t p) ∧
    (∀ t : BitVec 7, decodeCommand (0b1#1 ++ t) p = .rsvd80FF t p) := by
  refine ⟨?_, ?_, ?_, ?_, ?_, ?_⟩ <;> intro t <;> have ht := t.isLt <;>
    simp (disch := omega) only [decodeCommand_eq, toNat_typeBits, BitVec.toNat_ofNat, if_neg, if_pos,
      BitVec.extractLsb'_append_eq_right]

theorem length_le_of_payloadFits {p : List Byte} (h : payloadFits p = true) : p.length ≤ 64 := of_decide_eq_true h

/-! ### The selection of a byte operation (R84) -/

/-- AwaitingChecksum: the byte is the expected checksum or it is not. -/
theorem decodeByte_awaitingChecksum (m : Bool) (e b : Byte) :
    decodeByte ⟨.awaitingChecksum, m, e⟩ b = if b = e then .csumOk b else .csumBad b := rfl

/-- In AwaitingChecksum the selection reads the frame in flight, which the buffer holds if `plen` is at most 64. -/
theorem byteCtx_awaitingChecksum {s : State} (hs : s.stage = .awaitingChecksum) (hn : s.plen.toNat ≤ 64) :
    byteCtx s =
      some ⟨.awaitingChecksum, moreDue s, checksum s.ptype s.plen (s.buf.readList s.plen.toNat)⟩ := by
  rw [byteCtx_of_le hn, checkedLength, if_pos hs, hs]

theorem selects_awaitingChecksum {s : State} (b : Byte) (hs : s.stage = .awaitingChecksum) (hn : s.plen.toNat ≤ 64) :
    Selects s b (if b = checksum s.ptype s.plen (s.buf.readList s.plen.toNat) then .csumOk b else .csumBad b) :=
  ⟨_, byteCtx_awaitingChecksum hs hn, decodeByte_awaitingChecksum _ _ b⟩

/-- Every byte operation the decoder gives is well formed (R84). -/
theorem decodeByte_wf (c : ByteCtx) (b : Byte) : (decodeByte c b).wf = true := by
  obtain ⟨st, m, e⟩ := c
  cases st with
  | awaitingMagic => rw [decodeByte_awaitingMagic]; split <;> simp_all [Instr.wf]
  | awaitingType => rfl
  | awaitingLength => rw [decodeByte_awaitingLength]; split_ifs <;> simp [Instr.wf, Config.bufCap] <;> omega
  | awaitingPayload => cases m <;> rfl
  | awaitingChecksum => rw [decodeByte_awaitingChecksum]; split <;> rfl

/-- Every byte operation the decoder gives is a BYTE row that applies and is encoded by the byte (R87). -/
theorem decodeByte_row (c : ByteCtx) (b : Byte) :
    (decodeByte c b).format = .byte ∧ rowApplies c (decodeByte c b) = true ∧ encode (decodeByte c b) = [b] := by
  obtain ⟨st, m, e⟩ := c
  cases st with
  | awaitingMagic => rw [decodeByte_awaitingMagic]; split <;> simp_all [Instr.format, rowApplies, encode]
  | awaitingType => exact ⟨rfl, rfl, rfl⟩
  | awaitingLength =>
    simp only [decodeByte, lenZero, decide_eq_true_eq]
    split_ifs <;> simp_all [Instr.format, rowApplies, encode]
  | awaitingPayload => cases m <;> exact ⟨rfl, rfl, rfl⟩
  | awaitingChecksum => rw [decodeByte_awaitingChecksum]; split <;> simp_all [Instr.format, rowApplies, encode]

/-- The rows exclude each other: the stage and the class of the byte leave one row. -/
theorem eq_decodeByte {c : ByteCtx} {b : Byte} {i : Instr} (hwf : i.wf = true) (hrow : rowApplies c i = true)
    (henc : encode i = [b]) : i = decodeByte c b := by
  obtain ⟨st, m, e⟩ := c
  cases i with
  | wdExpire | burstNext | burstEnd => cases hrow
  | mouse | keyboard | rsvd00 | rsvd03 | rsvd0407 | rsvd080F | rsvd101F | rsvd203F | rsvd407F | rsvd80FF => cases hrow
  | lenOk n =>
    obtain rfl : n = b := List.head_eq_of_cons_eq henc
    obtain rfl : st = .awaitingLength := of_decide_eq_true hrow
    obtain ⟨h1, h64⟩ : 1 ≤ n.toNat ∧ n.toNat ≤ 64 := of_decide_eq_true hwf
    rw [decodeByte_awaitingLength, if_neg (by omega), if_neg (by omega)]
  | lenOver n =>
    obtain rfl : n = b := List.head_eq_of_cons_eq henc
    obtain rfl : st = .awaitingLength := of_decide_eq_true hrow
    have h64 : 64 < n.toNat := of_decide_eq_true hwf
    rw [decodeByte_awaitingLength, if_neg (by omega), if_pos h64]
  | syncHit | syncMiss | typeByte | lenZero | pay | payLast | csumOk | csumBad =>
    simp_all [rowApplies, encode, Instr.wf, decodeByte, magicHit, lenZero]

/-! ### The obligations -/

/-- Settles O1: every row's encoding is the frame of its type and payload, and its type bits select the row. -/
theorem frameDecodesToItsCommand : Obligations.FrameDecodesToItsCommand := by
  intro i rest hf hwf
  cases i with
  | mouse p => exact decodeFrame_encodeFrame _ rest (length_le_of_payloadFits hwf)
  | keyboard p => exact decodeFrame_encodeFrame _ rest (length_le_of_payloadFits hwf)
  | rsvd00 p => exact decodeFrame_encodeFrame _ rest (length_le_of_payloadFits hwf)
  | rsvd03 p => exact decodeFrame_encodeFrame _ rest (length_le_of_payloadFits hwf)
  | rsvd0407 t p | rsvd080F t p | rsvd101F t p | rsvd203F t p | rsvd407F t p | rsvd80FF t p =>
    obtain ⟨h2, h3, h4, h5, h6, h7⟩ := decodeCommand_typeBits p
    simp only [encode, decodeFrame_encodeFrame _ rest (length_le_of_payloadFits hwf), h2, h3, h4, h5, h6, h7]
  | _ => cases hf

/-- Settles O2: existence from the decoder's rows, uniqueness from the rows excluding each other. -/
theorem exactlyOneByteRowApplies : Obligations.ExactlyOneByteRowApplies := fun c b =>
  have ⟨hf, hrow, henc⟩ := decodeByte_row c b
  ⟨⟨hf, decodeByte_wf c b, hrow, henc⟩, fun _ hwf hrow henc => eq_decodeByte hwf hrow henc⟩

/-- Settles O3: by the stage; in AwaitingPayload the invariant leaves `fill + 1` at most `plen`. -/
theorem byteOperationSelectedByStageAndByte : Obligations.ByteOperationSelectedByStageAndByte := by
  intro s b hs
  refine ⟨_, byteCtx_of_le hs.plenLe, ?_⟩
  refine ⟨?_, ?_, ?_, ?_, ?_, ?_, ?_, ?_, ?_, ?_, ?_⟩ <;> intro hst
  · rintro rfl; rw [hst, decodeByte_awaitingMagic, if_pos rfl]
  · intro hb; rw [hst, decodeByte_awaitingMagic, if_neg hb]
  · rw [hst]; rfl
  · rintro rfl; rw [hst]; rfl
  · intro h1 h64; rw [hst, decodeByte_awaitingLength, if_neg (by omega), if_neg (by omega)]
  · intro h65; rw [hst, decodeByte_awaitingLength, if_neg (by omega), if_pos (by omega)]
  · intro hmore; rw [hst, decodeByte_awaitingPayload, if_pos hmore]
  · intro hlast; rw [hst, decodeByte_awaitingPayload, if_neg (by omega)]
  · have := hs.inPayload hst; omega
  · intro hb; rw [hst, decodeByte_awaitingChecksum, checkedLength, if_pos hst, if_pos hb]
  · intro hb; rw [hst, decodeByte_awaitingChecksum, checkedLength, if_pos hst, if_neg hb]

/-- Settles O4: the three tests of the decoder, in its order. -/
theorem invalidFramesRejectedByName : Obligations.InvalidFramesRejectedByName := by
  refine ⟨fun m rest h => decodeFrame_badMagic rest h, fun t n rest h => ?_, fun t c p rest hp hc => ?_⟩
  · rw [decodeFrame_header, if_pos h]
  · rw [decodeFrame_append t c rest hp, if_neg hc]

/-- Settles O5: the model's decoder evaluated on the five words. -/
theorem specWordsDecode : Obligations.SpecWordsDecode := by
  unfold Obligations.SpecWordsDecode
  decide

end Sys2Proof.Proofs
end

section
/-! What one operation can do, said once: its effect in every state in which it gives a next state, and what that leaves
unchanged (R14, R45). -/

namespace Sys2Proof.Proofs

open Sys2Proof.Machine Sys2Proof.Safety Sys2Proof.Laws

/-! ### Effects of the remaining operations -/

theorem exec_lenZero (s : State) :
    exec .lenZero s = .next (armDeadline { s with plen := 0, fill := 0, stage := .awaitingChecksum }) := rfl

theorem exec_lenOver (b : Byte) (s : State) : exec (.lenOver b) s = .next (parserDrop .oversize s) := rfl

theorem exec_csumBad (b : Byte) (s : State) : exec (.csumBad b) s = .next (parserDrop .badChecksum s) := rfl

theorem exec_wdExpire (s : State) : exec .wdExpire s = .next (parserDrop .timeout s) := rfl

theorem exec_burstNext (s : State) :
    exec .burstNext s = .next (continueBurst (emit (.mouseReport s.dButtons s.dX s.dY) s)) := rfl

theorem exec_burstEnd (s : State) : exec .burstEnd s = .next (endBurst s) := rfl

theorem exec_pay_outside (b : Byte) {s : State} (h : 64 ≤ s.fill.toNat) : exec (.pay b) s = .fault .bufferIndex := by
  simp [exec, execPay, appendByte_eq, orBufferFault, Nat.not_lt.2 h]

theorem exec_payLast_outside (b : Byte) {s : State} (h : 64 ≤ s.fill.toNat) :
    exec (.payLast b) s = .fault .bufferIndex := by
  simp [exec, execPayLast, appendByte_eq, orBufferFault, Nat.not_lt.2 h]

theorem exec_csumOk_outside (b : Byte) {s : State} (h : 64 < s.plen.toNat) :
    exec (.csumOk b) s = .fault .bufferIndex := by
  simp [exec, execCsumOk, bufRead_eq, Nat.not_le.2 h]

/-! ### The effect of an operation, as a relation -/

/-- Which drop a frame command marks, with the table's condition (R200, codes 5 to 7). -/
inductive CommandDrop (ready : Bool) : Instr → Cause → Prop
  | mouseShort (p : List Byte) (short : p.length < 5) : CommandDrop ready (.mouse p) .undersized
  | keyboardShort (p : List Byte) (short : p.length < 7) : CommandDrop ready (.keyboard p) .undersized
  | mouseNotReady (p : List Byte) (long : 5 ≤ p.length) (h : ready = false) : CommandDrop ready (.mouse p) .notReady
  | keyboardNotReady (p : List Byte) (long : 7 ≤ p.length) (h : ready = false) : CommandDrop ready (.keyboard p) .notReady
  | reserved (i : Instr) (h : isReserved i = true) : CommandDrop ready i .reserved

/-- What a frame command can do (R156, R159, R161): mark a drop for the table's reason, or report. -/
inductive CommandEffect (s : State) : Instr → State → Prop
  | dropped (i : Instr) (c : Cause) (reason : CommandDrop s.devReady i c) : CommandEffect s i (dropMark c s)
  | mouseReport (p : List Byte) (long : 5 ≤ p.length) (ready : s.devReady = true) :
      CommandEffect s (.mouse p) (startBurst (mouseButtons p) (mouseX p) (mouseY p)
        (emit (.mouseReport (mouseButtons p) (mouseX p) (mouseY p)) s))
  | keyboardReport (p : List Byte) (long : 7 ≤ p.length) (ready : s.devReady = true) :
      CommandEffect s (.keyboard p) (emit (.kbdReport (kbdModifiers p) (kbdKeycodes p)) s)

/-- What an operation can do, whether a step selects it or not (log 18). -/
inductive Effect (s : State) : Instr → State → Prop
  | syncHit : Effect s .syncHit (armDeadline { s with stage := .awaitingType })
  | syncMiss (b : Byte) : Effect s (.syncMiss b) (dropMark .badMagic s)
  | typeByte (b : Byte) : Effect s (.typeByte b) (armDeadline { s with ptype := b, stage := .awaitingLength })
  | lenZero : Effect s .lenZero (armDeadline { s with plen := 0, fill := 0, stage := .awaitingChecksum })
  | lenOk (b : Byte) : Effect s (.lenOk b) (armDeadline { s with plen := b, fill := 0, stage := .awaitingPayload })
  | lenOver (b : Byte) : Effect s (.lenOver b) (parserDrop .oversize s)
  | pay (b : Byte) (inside : s.fill.toNat < 64) :
      Effect s (.pay b) { s with buf := s.buf.write s.fill.toNat b, fill := s.fill + 1 }
  | payLast (b : Byte) (inside : s.fill.toNat < 64) :
      Effect s (.payLast b) { s with buf := s.buf.write s.fill.toNat b, fill := s.fill + 1, stage := .awaitingChecksum }
  | csumOk (b : Byte) (t : State) (fits : s.plen.toNat ≤ 64)
      (command : CommandEffect (handedOver s.ptype (s.buf.readList s.plen.toNat) (frameReset s))
        (decodeCommand s.ptype (s.buf.readList s.plen.toNat)) t) : Effect s (.csumOk b) t
  | csumBad (b : Byte) : Effect s (.csumBad b) (parserDrop .badChecksum s)
  | wdExpire : Effect s .wdExpire (parserDrop .timeout s)
  | burstNext : Effect s .burstNext (continueBurst (emit (.mouseReport s.dButtons s.dX s.dY) s))
  | burstEnd : Effect s .burstEnd (endBurst s)
  | command (i : Instr) (t : State) (frame : i.format = .frame) (command : CommandEffect s i t) : Effect s i t

theorem format_of_isReserved {i : Instr} (h : isReserved i = true) : i.format = .frame := by
  cases i with
  | rsvd00 | rsvd03 | rsvd0407 | rsvd080F | rsvd101F | rsvd203F | rsvd407F | rsvd80FF => rfl
  | _ => cases h

/-- The three kinds of frame command (R86). -/
theorem frame_cases {i : Instr} (h : i.format = .frame) :
    (∃ p, i = .mouse p) ∨ (∃ p, i = .keyboard p) ∨ isReserved i = true := by
  cases i with
  | mouse p => exact .inl ⟨p, rfl⟩
  | keyboard p => exact .inr (.inl ⟨p, rfl⟩)
  | rsvd00 | rsvd03 | rsvd0407 | rsvd080F | rsvd101F | rsvd203F | rsvd407F | rsvd80FF => exact .inr (.inr rfl)
  | _ => cases h

/-- A frame command always gives a next state. -/
theorem commandEffect_exec {i : Instr} (s : State) (h : i.format = .frame) :
    ∃ t, exec i s = .next t ∧ CommandEffect s i t := by
  obtain ⟨p, rfl⟩ | ⟨p, rfl⟩ | hr := frame_cases h
  · obtain ⟨hl, h⟩ | ⟨hl, hr, h⟩ | ⟨hl, hr, h⟩ := execMouse_cases p s
    · exact ⟨_, h, .dropped _ _ (.mouseShort p hl)⟩
    · exact ⟨_, h, .dropped _ _ (.mouseNotReady p hl hr)⟩
    · exact ⟨_, h, .mouseReport p hl hr⟩
  · obtain ⟨hl, h⟩ | ⟨hl, hr, h⟩ | ⟨hl, hr, h⟩ := execKeyboard_cases p s
    · exact ⟨_, h, .dropped _ _ (.keyboardShort p hl)⟩
    · exact ⟨_, h, .dropped _ _ (.keyboardNotReady p hl hr)⟩
    · exact ⟨_, h, .keyboardReport p hl hr⟩
  · exact ⟨_, exec_of_isReserved s hr, .dropped _ _ (.reserved i hr)⟩

theorem format_decodeCommand (t : Byte) (p : List Byte) : (decodeCommand t p).format = .frame := by
  by_cases h1 : t = 0x01
  · rw [h1, decodeCommand_mouse]; rfl
  by_cases h2 : t = 0x02
  · rw [h2, decodeCommand_keyboard]; rfl
  exact format_of_isReserved (isReserved_decodeCommand p h1 h2)

/-- `CSUM_OK` inside the buffer always gives a next state, that of the command it dispatches. -/
theorem commandEffect_csumOk (b : Byte) {s : State} (h : s.plen.toNat ≤ 64) :
    ∃ t, exec (.csumOk b) s = .next t ∧
      CommandEffect (handedOver s.ptype (s.buf.readList s.plen.toNat) (frameReset s))
        (decodeCommand s.ptype (s.buf.readList s.plen.toNat)) t := by
  rw [exec_csumOk b h, runCommand_eq_exec]
  exact commandEffect_exec _ (format_decodeCommand _ _)

/-- The inversion of `exec`: an operation that gives a next state has its effect. -/
theorem effect_of_exec {i : Instr} {s t : State} (h : exec i s = .next t) : Effect s i t := by
  by_cases hf : i.format = .frame
  · obtain ⟨u, hu, hc⟩ := commandEffect_exec s hf
    rw [hu] at h; cases h; exact .command i _ hf hc
  cases i with
  | syncHit => cases h; exact .syncHit
  | syncMiss b => cases h; exact .syncMiss b
  | typeByte b => cases h; exact .typeByte b
  | lenZero => cases h; exact .lenZero
  | lenOk b => cases h; exact .lenOk b
  | lenOver b => cases h; exact .lenOver b
  | csumBad b => cases h; exact .csumBad b
  | wdExpire => cases h; exact .wdExpire
  | burstNext => cases h; exact .burstNext
  | burstEnd => cases h; exact .burstEnd
  | pay b =>
    by_cases hf : s.fill.toNat < 64
    · rw [exec_pay b hf] at h; cases h; exact .pay b hf
    · rw [exec_pay_outside b (by omega)] at h; cases h
  | payLast b =>
    by_cases hf : s.fill.toNat < 64
    · rw [exec_payLast b hf] at h; cases h; exact .payLast b hf
    · rw [exec_payLast_outside b (by omega)] at h; cases h
  | csumOk b =>
    by_cases hn : s.plen.toNat ≤ 64
    · obtain ⟨u, hu, hc⟩ := commandEffect_csumOk b hn
      rw [hu] at h; cases h; exact .csumOk b _ hn hc
    · rw [exec_csumOk_outside b (by omega)] at h; cases h
  | _ => exact absurd rfl hf

/-! ### Frames (R45) -/

/-- A parser-level drop empties the frame, leaves its mark, and changes nothing else (R206). -/
theorem parserDrop_frame (c : Cause) (s : State) :
    FrameEmpty (parserDrop c s) ∧ (parserDrop c s).deadline = s.deadline ∧ SameBuffer s (parserDrop c s) ∧
      SameDispatcher s (parserDrop c s) ∧ SameEnvironment s (parserDrop c s) ∧ Emitted s (parserDrop c s) [.drop c] :=
  ⟨⟨rfl, rfl, rfl, rfl⟩, rfl, fun _ => rfl, ⟨rfl, rfl, rfl, rfl, rfl, rfl⟩, ⟨rfl, rfl, rfl, rfl, rfl, rfl⟩, rfl⟩

/-- Whatever a frame command does, it writes no parser register, no buffer cell and no input, and performs one action,
which is neither a hand-over nor a wakeup request; if it is a drop, it is for the table's reason. -/
structure CommandFrame (s t : State) (i : Instr) (a : Action) : Prop where
  parser      : SameParser s t
  buf         : t.buf = s.buf
  environment : SameEnvironment s t
  emitted     : Emitted s t [a]
  noDeliver   : isDeliver a = false
  noWake      : a ≠ .wakeReq
  drop        : ∀ c, a = .drop c → CommandDrop s.devReady i c

theorem CommandEffect.frame {i : Instr} {s t : State} (h : CommandEffect s i t) : ∃ a, CommandFrame s t i a := by
  cases h with
  | dropped i c reason =>
    exact ⟨.drop c, ⟨rfl, rfl, rfl, rfl, rfl⟩, rfl, ⟨rfl, rfl, rfl, rfl, rfl, rfl⟩, rfl, rfl, nofun,
      fun _ hc => by cases hc; exact reason⟩
  | keyboardReport p =>
    exact ⟨.kbdReport (kbdModifiers p) (kbdKeycodes p),
      ⟨rfl, rfl, rfl, rfl, rfl⟩, rfl, ⟨rfl, rfl, rfl, rfl, rfl, rfl⟩, rfl, rfl, nofun, nofun⟩
  | mouseReport p =>
    exact ⟨.mouseReport (mouseButtons p) (mouseX p) (mouseY p),
      ⟨rfl, rfl, rfl, rfl, rfl⟩, rfl, ⟨rfl, rfl, rfl, rfl, rfl, rfl⟩, rfl, rfl, nofun, nofun⟩

/-- A command other than one that begins a burst writes no dispatcher register. -/
theorem CommandEffect.sameDispatcher {i : Instr} {s t : State} (h : CommandEffect s i t) (hm : ∀ p, i ≠ .mouse p) :
    SameDispatcher s t := by
  cases h with
  | mouseReport p => exact absurd rfl (hm p)
  | _ => exact ⟨rfl, rfl, rfl, rfl, rfl, rfl⟩

/-- The command of a packet, run in the state its hand-over leaves, seen from the state before. -/
structure DispatchFrame (s t : State) (ty : Byte) (p : List Byte) (i : Instr) (a : Action) : Prop where
  parser      : SameParser s t
  buf         : t.buf = s.buf
  environment : SameEnvironment s t
  emitted     : Emitted s t ([.deliver ty p.length p] ++ wakeActions s.devSuspended ++ [a])
  noDeliver   : isDeliver a = false
  noWake      : a ≠ .wakeReq
  drop        : ∀ c, a = .drop c → CommandDrop s.devReady i c

theorem CommandEffect.dispatchFrame {i : Instr} {s t : State} {ty : Byte} {p : List Byte}
    (h : CommandEffect (handedOver ty p s) i t) : ∃ a, DispatchFrame s t ty p i a := by
  obtain ⟨a, hpar, hbuf, henv, hem, hd, hw, hdrop⟩ := h.frame
  obtain ⟨p1, p2, p3, p4, p5⟩ := hpar
  obtain ⟨e1, e2, e3, e4, e5, e6⟩ := henv
  simp only [handedOver_stage, handedOver_ptype, handedOver_plen, handedOver_fill, handedOver_deadline, handedOver_buf,
    handedOver_now, handedOver_devReady, handedOver_devSuspended, handedOver_rx, handedOver_script,
    handedOver_cycles] at p1 p2 p3 p4 p5 hbuf e1 e2 e3 e4 e5 e6 hdrop
  refine ⟨a, ⟨p1, p2, p3, p4, p5⟩, hbuf, ⟨e1, e2, e3, e4, e5, e6⟩, ?_, hd, hw, hdrop⟩
  rw [Emitted, hem, handedOver_trace, handedOver_now, List.append_assoc, ← List.map_append]

/-- What `CSUM_OK` leaves (R120): the emptied frame, and the actions of the dispatch, the hand-over first. -/
structure DeliveryFrame (s t : State) (a : Action) : Prop where
  empty       : FrameEmpty t
  deadline    : t.deadline = s.deadline
  buf         : t.buf = s.buf
  environment : SameEnvironment s t
  emitted     : Emitted s t ([.deliver s.ptype s.plen.toNat (s.buf.readList s.plen.toNat)] ++
    wakeActions s.devSuspended ++ [a])
  noDeliver   : isDeliver a = false
  drop        : ∀ c, a = .drop c → CommandDrop s.devReady (decodeCommand s.ptype (s.buf.readList s.plen.toNat)) c

theorem CommandEffect.deliveryFrame {s t : State}
    (h : CommandEffect (handedOver s.ptype (s.buf.readList s.plen.toNat) (frameReset s))
      (decodeCommand s.ptype (s.buf.readList s.plen.toNat)) t) : ∃ a, DeliveryFrame s t a := by
  obtain ⟨a, hpar, hbuf, henv, hem, hd, -, hdrop⟩ := h.dispatchFrame
  rw [length_readList] at hem
  exact ⟨a, ⟨hpar.stage, hpar.ptype, hpar.plen, hpar.fill⟩, hpar.deadline, hbuf,
    ⟨henv.now, henv.devReady, henv.devSuspended, henv.rx, henv.script, henv.cycles⟩, hem, hd, hdrop⟩

/-! ### Actions appended -/

theorem stepActions_of_emitted {s t : State} {acts : List Action} (h : Emitted s t acts) : stepActions s t = acts := by
  rw [Emitted] at h
  simp [stepActions, h, Function.comp_def]

theorem emitted_nil {s t : State} (h : t.trace = s.trace) : Emitted s t [] := by simp [Emitted, h]

end Sys2Proof.Proofs
end

section
/-! The byte operations, the time operations and the commands one by one (41_frame_parser.md, 42_watchdog.md,
43_dispatcher.md). -/

namespace Sys2Proof.Proofs

open Sys2Proof.Machine Sys2Proof.Safety Sys2Proof.Laws

/-- Settles O12: the length byte 0 has a row of its own, and its effect is a header write. -/
theorem zeroLengthGoesToChecksum : Obligations.ZeroLengthGoesToChecksum :=
  ⟨fun _ hs => (selects_iff_decodeByte hs (by decide)).2 rfl,
    fun s => ⟨_, exec_lenZero s, rfl, rfl, rfl, rfl, rfl, headerWrite_frame s _ _ _ _⟩⟩

/-- Settles O14. -/
theorem oversizeLengthDropsFrame : Obligations.OversizeLengthDropsFrame := by
  refine ⟨fun b s hs h65 => ?_, fun b s => ⟨_, exec_lenOver b s, parserDrop_frame .oversize s⟩⟩
  rw [selects_iff_decodeByte hs (by decide), decodeByte_awaitingLength, if_neg (by omega), if_pos (by omega)]

/-- Settles O17: the three accesses of the buffer outside its 64 cells. -/
theorem accessOutsideBufferFaults : Obligations.AccessOutsideBufferFaults := fun b _ =>
  ⟨fun h => ⟨exec_pay_outside b h, exec_payLast_outside b h⟩, exec_csumOk_outside b⟩

/-- Settles O18: the packet is read before the reset, and the dispatch starts from the emptied frame. -/
theorem matchingChecksumDispatchesPacket : Obligations.MatchingChecksumDispatchesPacket := by
  refine ⟨fun b s hs hn hb => ?_, fun b s hn => ?_⟩
  · have h := selects_awaitingChecksum b hs hn
    rwa [if_pos hb] at h
  obtain ⟨t, ht, hc⟩ := commandEffect_csumOk b hn
  have hdispatch : dispatch ⟨s.ptype, s.buf.readList s.plen.toNat⟩ (frameReset s) = .next t := by
    rw [dispatch_eq, ← exec_csumOk b hn, ht]
  obtain ⟨a, hemp, hdl, hbuf, henv, hem, -, -⟩ := hc.deliveryFrame
  exact ⟨frameReset s, t, ⟨rfl, rfl, rfl, rfl⟩, rfl, fun _ => rfl, ⟨rfl, rfl, rfl, rfl, rfl, rfl⟩,
    ⟨rfl, rfl, rfl, rfl, rfl, rfl⟩, rfl, ht, hdispatch, ⟨_, hem⟩, hemp, hdl, fun _ => by rw [hbuf], henv⟩

/-- Settles O19. -/
theorem wrongChecksumDropsFrame : Obligations.WrongChecksumDropsFrame := by
  refine ⟨fun b s hs hn hb => ?_, fun b s => ⟨_, exec_csumBad b s, parserDrop_frame .badChecksum s⟩⟩
  have h := selects_awaitingChecksum b hs hn
  rwa [if_neg hb] at h

/-- Settles O20. -/
theorem watchdogExpiryDropsFrame : Obligations.WatchdogExpiryDropsFrame := fun s =>
  ⟨_, exec_wdExpire s, parserDrop_frame .timeout s⟩

/-- The emission count below 3 does not overflow its 2 bits. -/
theorem dSent_succ {n : BitVec 2} (h : n.toNat < 3) : (n + 1).toNat = n.toNat + 1 := by
  rw [BitVec.toNat_add]
  exact Nat.mod_eq_of_lt (Nat.succ_lt_succ h)

/-- Settles O21. -/
theorem burstNextEmitsLatchedReport : Obligations.BurstNextEmitsLatchedReport := fun s h =>
  ⟨_, exec_burstNext s, dSent_succ h, rfl, rfl, rfl, rfl, rfl, ⟨rfl, rfl, rfl, rfl, rfl⟩, fun _ => rfl,
    ⟨rfl, rfl, rfl, rfl, rfl, rfl⟩, rfl⟩

/-- Settles O22. -/
theorem burstEndReturnsToIdle : Obligations.BurstEndReturnsToIdle := fun s =>
  ⟨_, exec_burstEnd s, rfl, rfl, rfl, rfl, rfl, rfl, ⟨rfl, rfl, rfl, rfl, rfl⟩, fun _ => rfl,
    ⟨rfl, rfl, rfl, rfl, rfl, rfl⟩, rfl⟩

/-- Settles O24: the third branch of `MOUSE`, its fields by `mouseFieldsLittleEndian`. -/
theorem mouseBeginsBurst : Obligations.MouseBeginsBurst := by
  intro p s hl hr
  obtain ⟨hx, hy, hb⟩ := mouseFieldsLittleEndian p hl
  obtain ⟨hl', -⟩ | ⟨-, hr', -⟩ | ⟨-, -, h⟩ := execMouse_cases p s
  · omega
  · simp [hr] at hr'
  · exact ⟨_, h, rfl, rfl, rfl, hb, hx, hy, ⟨rfl, rfl, rfl, rfl, rfl⟩, fun _ => rfl, ⟨rfl, rfl, rfl, rfl, rfl, rfl⟩, rfl⟩

/-- Settles O26: the first two branches of `MOUSE`, each a mark. -/
theorem mouseDroppedWhenShortOrNotReady : Obligations.MouseDroppedWhenShortOrNotReady := by
  intro p s
  obtain ⟨hl, h⟩ | ⟨hl, hr, h⟩ | ⟨hl, hr, -⟩ := execMouse_cases p s
  · exact ⟨fun _ => ⟨_, h, dropMark_frame _ s⟩, fun _ => by omega⟩
  · exact ⟨fun _ => by omega, fun _ _ => ⟨_, h, dropMark_frame _ s⟩⟩
  · exact ⟨fun _ => by omega, fun _ hr' => by simp [hr] at hr'⟩

theorem wakeActions_eq_ite (z : Bool) : wakeActions z = if z then [.wakeReq] else [] := by cases z <;> rfl

/-- Settles O29: the hand-over and the wakeup stand before the command's one action; the four parser-level drops have one
action, their mark. -/
theorem wakeupRequestedBeforeCommand : Obligations.WakeupRequestedBeforeCommand := by
  refine ⟨fun ty p s => ?_, fun i s u hi h => ?_⟩
  · obtain ⟨u, hu, hc⟩ := commandEffect_exec (handedOver ty p s) (format_decodeCommand ty p)
    obtain ⟨a, -, -, -, hem, hd, hw, -⟩ := hc.dispatchFrame
    refine ⟨u, a, by rw [dispatch_eq, runCommand_eq_exec, hu], ?_, hw, hd⟩
    rwa [← wakeActions_eq_ite]
  · obtain ⟨b, rfl⟩ | ⟨b, rfl⟩ | ⟨b, rfl⟩ | rfl := hi <;> cases h <;> exact ⟨_, rfl⟩

end Sys2Proof.Proofs
end

section
/-! Who writes what (10_state.md sections 2 and 11, 20_memory.md section 4, 42_watchdog.md), and what a drop says
(60_exceptions.md): consequences of the effects, operation by operation. -/

namespace Sys2Proof.Proofs

open Sys2Proof.Machine Sys2Proof.Safety Sys2Proof.Laws

/-- Settles O50. -/
theorem deadlineArmedByFourOperations : Obligations.DeadlineArmedByFourOperations := by
  intro i s t h
  cases effect_of_exec h with
  | syncHit | typeByte | lenZero | lenOk => exact ⟨fun _ => rfl, fun hn => absurd (by simp) hn⟩
  | csumOk b t fits cmd =>
    obtain ⟨a, hf⟩ := cmd.deliveryFrame
    exact ⟨by simp, fun _ => hf.deadline⟩
  | command i t frame cmd =>
    obtain ⟨a, hf⟩ := cmd.frame
    refine ⟨?_, fun _ => hf.parser.deadline⟩
    rintro (rfl | ⟨b, rfl⟩ | rfl | ⟨b, rfl⟩) <;> cases frame
  | _ => exact ⟨by simp, fun _ => rfl⟩

/-- Settles O53. -/
theorem bufferWrittenByPayloadOperationsOnly : Obligations.BufferWrittenByPayloadOperationsOnly := by
  intro i s t hwf h
  cases effect_of_exec h with
  | pay b inside | payLast b inside =>
    refine ⟨?_, fun hn => absurd (hn b) (by simp)⟩
    rintro b' (hb | hb) <;> cases hb
    exact ⟨inside, read_write_same hwf, fun _ ha => read_write_other ha⟩
  | csumOk b t fits cmd =>
    obtain ⟨a, hf⟩ := cmd.deliveryFrame
    exact ⟨by simp, fun _ => hf.buf⟩
  | command i t frame cmd =>
    obtain ⟨a, hf⟩ := cmd.frame
    refine ⟨?_, fun _ => hf.buf⟩
    rintro b (rfl | rfl) <;> cases frame
  | _ => exact ⟨by simp, fun _ => rfl⟩

/-- Who writes the fill count, operation by operation (R24). -/
theorem fill_of_exec {i : Instr} {s t : State} (h : exec i s = .next t) :
    ((i = .lenZero ∨ (∃ b, i = .lenOk b) ∨ (∃ b, i = .lenOver b) ∨ (∃ b, i = .csumOk b) ∨ (∃ b, i = .csumBad b) ∨
      i = .wdExpire) → t.fill = 0) ∧
    ((∃ b, i = .pay b ∨ i = .payLast b) → t.fill.toNat = s.fill.toNat + 1) ∧
    (i = .syncHit ∨ (∃ b, i = .syncMiss b) ∨ (∃ b, i = .typeByte b) ∨ i = .burstNext ∨ i = .burstEnd ∨
      i.format = .frame → t.fill = s.fill) := by
  cases effect_of_exec h with
  | pay b inside | payLast b inside => exact ⟨by simp, fun _ => fill_succ inside, by simp [Instr.format]⟩
  | csumOk b t fits cmd =>
    obtain ⟨a, hf⟩ := cmd.deliveryFrame
    exact ⟨fun _ => hf.empty.fill, by simp, by simp [Instr.format]⟩
  | command i t frame cmd =>
    obtain ⟨a, hf⟩ := cmd.frame
    refine ⟨?_, ?_, fun _ => hf.parser.fill⟩
    · rintro (rfl | ⟨b, rfl⟩ | ⟨b, rfl⟩ | ⟨b, rfl⟩ | ⟨b, rfl⟩ | rfl) <;> cases frame
    · rintro ⟨b, rfl | rfl⟩ <;> cases frame
  | lenZero | lenOk | lenOver | csumBad | wdExpire => exact ⟨fun _ => rfl, by simp, by simp [Instr.format]⟩
  | syncHit | syncMiss | typeByte | burstNext | burstEnd => exact ⟨by simp, by simp, fun _ => rfl⟩

/-- Settles O55. -/
theorem operationsRespectOwnership : Obligations.OperationsRespectOwnership := by
  intro i s t h
  cases effect_of_exec h with
  | csumOk b t fits cmd =>
    obtain ⟨a, hf⟩ := cmd.deliveryFrame
    exact ⟨hf.environment, ⟨_, hf.emitted⟩, fun hc => absurd rfl (hc b), by simp [Instr.format], by simp⟩
  | command i t frame cmd =>
    obtain ⟨a, hf⟩ := cmd.frame
    exact ⟨hf.environment, ⟨_, hf.emitted⟩, fun _ hm _ _ => cmd.sameDispatcher hm, fun _ => hf.parser, fun _ => hf.parser⟩
  | syncMiss | lenOver | csumBad | wdExpire =>
    exact ⟨⟨rfl, rfl, rfl, rfl, rfl, rfl⟩, ⟨[.drop _], rfl⟩, fun _ _ _ _ => ⟨rfl, rfl, rfl, rfl, rfl, rfl⟩,
      by simp [Instr.format], by simp⟩
  | syncHit | typeByte | lenZero | lenOk | pay | payLast =>
    exact ⟨⟨rfl, rfl, rfl, rfl, rfl, rfl⟩, ⟨_, emitted_nil rfl⟩, fun _ _ _ _ => ⟨rfl, rfl, rfl, rfl, rfl, rfl⟩,
      by simp [Instr.format], by simp⟩
  | burstNext =>
    exact ⟨⟨rfl, rfl, rfl, rfl, rfl, rfl⟩, ⟨[.mouseReport _ _ _], rfl⟩, by simp, by simp [Instr.format],
      fun _ => ⟨rfl, rfl, rfl, rfl, rfl⟩⟩
  | burstEnd =>
    exact ⟨⟨rfl, rfl, rfl, rfl, rfl, rfl⟩, ⟨_, emitted_nil rfl⟩, by simp, by simp [Instr.format],
      fun _ => ⟨rfl, rfl, rfl, rfl, rfl⟩⟩

/-! ### Drops (R200, R206) -/

/-- Where the table's reason for a drop holds, the command does nothing but mark it. -/
theorem CommandDrop.exec {i : Instr} {s : State} {c : Cause} (h : CommandDrop s.devReady i c) :
    exec i s = .next (dropMark c s) := by
  cases h with
  | mouseShort p hl => simp [exec_mouse, execMouse, hl]
  | keyboardShort p hl => simp [exec_keyboard, execKeyboard, hl]
  | mouseNotReady p hl hr => simp [exec_mouse, execMouse, Nat.not_lt.2 hl, hr]
  | keyboardNotReady p hl hr => simp [exec_keyboard, execKeyboard, Nat.not_lt.2 hl, hr]
  | reserved _ hr => exact exec_of_isReserved s hr

/-- Which operation marks a drop, by its cause (R200). -/
inductive DropBy (s : State) : Instr → Cause → Prop
  | badMagic (b : Byte) : DropBy s (.syncMiss b) .badMagic
  | oversize (b : Byte) : DropBy s (.lenOver b) .oversize
  | badChecksum (b : Byte) : DropBy s (.csumBad b) .badChecksum
  | timeout : DropBy s .wdExpire .timeout
  | command {i j : Instr} {c : Cause} (performs : Performs i s j) (drop : CommandDrop s.devReady j c) : DropBy s i c

theorem dropBy_of_exec {i : Instr} {s t : State} {c : Cause} (h : exec i s = .next t)
    (hc : .drop c ∈ stepActions s t) : DropBy s i c := by
  cases effect_of_exec h with
  | syncMiss b => simp [stepActions] at hc; subst hc; exact .badMagic b
  | lenOver b => simp [stepActions] at hc; subst hc; exact .oversize b
  | csumBad b => simp [stepActions] at hc; subst hc; exact .badChecksum b
  | wdExpire => simp [stepActions] at hc; subst hc; exact .timeout
  | csumOk b t fits cmd =>
    obtain ⟨a, hf⟩ := cmd.deliveryFrame
    rw [stepActions_of_emitted hf.emitted] at hc
    refine .command (.inr ⟨b, rfl, rfl⟩) (hf.drop c ?_)
    obtain ⟨-, hw⟩ | ⟨-, hw⟩ := wakeActions_cases s.devSuspended <;> simpa [hw, eq_comm] using hc
  | command i t frame cmd =>
    obtain ⟨a, hf⟩ := cmd.frame
    rw [stepActions_of_emitted hf.emitted] at hc
    exact .command (.inl rfl) (hf.drop c (List.mem_singleton.1 hc).symm)
  | _ => simp [stepActions] at hc

/-- Settles O51: a mark alone, or a mark with the frame reset. -/
theorem dropEffectsByCause : Obligations.DropEffectsByCause := by
  intro i s t c h hem
  have hc : .drop c ∈ stepActions s t := by simp [stepActions_of_emitted hem]
  cases dropBy_of_exec h hc with
  | badMagic b =>
    cases h
    obtain ⟨hpar, hbuf, hdis, henv, -⟩ := dropMark_frame .badMagic s
    exact ⟨hbuf, hdis, henv, fun _ => hpar, by simp, by simp⟩
  | oversize b | badChecksum b | timeout =>
    cases h
    obtain ⟨hemp, hdl, hbuf, hdis, henv, -⟩ := parserDrop_frame _ s
    exact ⟨hbuf, hdis, henv, by simp, fun _ => ⟨hemp, hdl⟩, by simp⟩
  | command performs drop =>
    obtain rfl | ⟨b, rfl, rfl⟩ := performs
    · rw [drop.exec] at h
      cases h
      obtain ⟨hpar, hbuf, hdis, henv, -⟩ := dropMark_frame c s
      exact ⟨hbuf, hdis, henv, fun _ => hpar, by cases drop <;> simp, fun _ => hpar⟩
    · cases effect_of_exec h with
      | csumOk _ _ _ cmd =>
        obtain ⟨a, hd⟩ := cmd.deliveryFrame
        have := (stepActions_of_emitted hem).symm.trans (stepActions_of_emitted hd.emitted)
        simp at this
      | command _ _ frame => cases frame

/-- The first half of O60: the operation a drop's code names, with the table's condition for the codes 5 to 7. -/
theorem dropBy_codes {i : Instr} {s : State} {c : Cause} (h : DropBy s i c) :
    (causeCode c = 1 → ∃ b, i = .syncMiss b) ∧
    (causeCode c = 2 → ∃ b, i = .lenOver b) ∧
    (causeCode c = 3 → ∃ b, i = .csumBad b) ∧
    (causeCode c = 4 → i = .wdExpire) ∧
    (causeCode c = 5 → ∃ p, (Performs i s (.mouse p) ∧ p.length < 5) ∨ (Performs i s (.keyboard p) ∧ p.length < 7)) ∧
    (causeCode c = 6 → s.devReady = false ∧
      ∃ p, (Performs i s (.mouse p) ∧ 5 ≤ p.length) ∨ (Performs i s (.keyboard p) ∧ 7 ≤ p.length)) ∧
    (causeCode c = 7 → ∃ j, Performs i s j ∧ isReserved j = true) ∧
    1 ≤ causeCode c ∧ causeCode c ≤ 7 := by
  cases h with
  | badMagic b | oversize b | badChecksum b => simp [causeCode]
  | timeout => simp [causeCode]
  | command performs drop =>
    cases drop with
    | mouseShort p hl =>
      exact ⟨nofun, nofun, nofun, nofun, fun _ => ⟨p, .inl ⟨performs, hl⟩⟩, nofun, nofun, by decide⟩
    | keyboardShort p hl =>
      exact ⟨nofun, nofun, nofun, nofun, fun _ => ⟨p, .inr ⟨performs, hl⟩⟩, nofun, nofun, by decide⟩
    | mouseNotReady p hl hr =>
      exact ⟨nofun, nofun, nofun, nofun, nofun, fun _ => ⟨hr, p, .inl ⟨performs, hl⟩⟩, nofun, by decide⟩
    | keyboardNotReady p hl hr =>
      exact ⟨nofun, nofun, nofun, nofun, nofun, fun _ => ⟨hr, p, .inr ⟨performs, hl⟩⟩, nofun, by decide⟩
    | reserved _ hr => exact ⟨nofun, nofun, nofun, nofun, nofun, nofun, fun _ => ⟨_, performs, hr⟩, by decide⟩

end Sys2Proof.Proofs
end

section
/-! The step forwards (44_step_and_laws.md section 3): which operation a cycle runs, and in which state. -/

namespace Sys2Proof.Proofs

open Sys2Proof.Machine Sys2Proof.Safety Sys2Proof.Laws

/-- A cycle with a burst in progress or no byte offered is the watchdog and the burst sequencer. -/
theorem step_tick {s : State} (hc : StepCycle s) (h : (opened s).dstage = .burst ∨ (opened s).rx = []) :
    step s = burstPhase exec (afterWatchdog (opened s)) := by
  rw [step_event hc, eventOf_tick h, stepEvent_tick]

/-- A cycle in which an idle dispatcher is offered a byte is the watchdog and the byte operation. -/
theorem step_byte {s : State} {c : ByteCtx} {b : Byte} {rest : List Byte} (hc : StepCycle s)
    (hd : (opened s).dstage = .idle) (hx : (opened s).rx = b :: rest)
    (hctx : byteCtx (afterWatchdog (opened s)) = some c) :
    step s = exec (decodeByte c b) (consume (afterWatchdog (opened s))) := by
  rw [step_event hc, eventOf_byte hd hx, stepEvent_byte, bytePhase, hctx]

/-- Consuming the offered byte leaves the rest of the queue. -/
theorem consume_eq {s : State} {b : Byte} {rest : List Byte} (h : s.rx = b :: rest) :
    consume s = { s with rx := rest } := by
  rw [consume, h, List.tail_cons]

/-- Part 1 of a step as the pseudocode has it (R142). -/
theorem eq_afterWatchdog {s u : State} (h : if wdExpired s then exec .wdExpire s = .next u else u = s) :
    u = afterWatchdog s := by
  obtain ⟨hw, ha⟩ | ⟨hw, ha⟩ := afterWatchdog_cases s <;> simp only [hw] at h
  · rw [ha]; exact h
  · cases h; exact ha.symm

theorem afterWatchdog_awaitingMagic {s : State} (h : s.stage = .awaitingMagic) : afterWatchdog s = s := by
  obtain ⟨-, ha⟩ | ⟨hw, -⟩ := afterWatchdog_cases s
  · exact ha
  · exact absurd h (wdExpired_iff.1 hw).1

/-- Inside the window, at equality too (D5), the watchdog does nothing. -/
theorem afterWatchdog_inTime {s : State} (h : s.now ≤ s.deadline) : afterWatchdog s = s := by
  obtain ⟨-, ha⟩ | ⟨hw, -⟩ := afterWatchdog_cases s
  · exact ha
  · exact absurd (wdExpired_iff.1 hw).2 (Nat.not_lt.2 h)

theorem afterWatchdog_late {s : State} (hst : s.stage ≠ .awaitingMagic) (h : s.deadline < s.now) :
    afterWatchdog s = parserDrop .timeout s := by
  rw [afterWatchdog, if_pos (wdExpired_iff.2 ⟨hst, h⟩)]

theorem le_deadline_of_not_expired {s : State} (hw : wdExpired s = false) (hst : s.stage ≠ .awaitingMagic) :
    s.now ≤ s.deadline :=
  Nat.not_lt.1 fun hlt => by rw [wdExpired_iff.2 ⟨hst, hlt⟩] at hw; cases hw

/-- A frame still in flight after the watchdog is inside its window. -/
theorem inTime_of_afterWatchdog {s : State} (h : (afterWatchdog s).stage ≠ .awaitingMagic) :
    afterWatchdog s = s ∧ s.now ≤ s.deadline := by
  obtain ⟨hw, ha⟩ | ⟨-, ha⟩ := afterWatchdog_cases s <;> rw [ha] at h
  · exact ⟨ha, le_deadline_of_not_expired hw h⟩
  · exact absurd rfl h

/-- The context of a byte in a state whose frame fits the buffer. -/
theorem byteCtx_eq {s : State} {c : ByteCtx} (hn : s.plen.toNat ≤ 64) (hc : byteCtx s = some c) :
    c.stage = s.stage ∧ c.moreDue = moreDue s ∧
      (s.stage = .awaitingChecksum → c.expected = checksum s.ptype s.plen (s.buf.readList s.plen.toNat)) := by
  rw [byteCtx_of_le hn] at hc
  cases hc
  exact ⟨rfl, rfl, fun hs => by rw [checkedLength, if_pos hs]⟩

theorem pauseOver_idle {s : State} (h : s.dstage = .idle) : pauseOver s = false := by simp [pauseOver, h]

theorem burstPhase_notOver {s : State} (h : pauseOver s = false) : burstPhase exec s = .next s := by
  simp [burstPhase, h]

theorem burstPhase_more {s : State} (h : pauseOver s = true) (h3 : s.dSent.toNat < 3) :
    burstPhase exec s = exec .burstNext s := by
  rw [burstPhase, if_pos h, if_pos h3]

theorem burstPhase_done {s : State} (h : pauseOver s = true) (h3 : 3 ≤ s.dSent.toNat) :
    burstPhase exec s = exec .burstEnd s := by
  rw [burstPhase, if_pos h, if_neg (Nat.not_lt.2 h3)]

/-- An operation gives a next state, or faults outside the buffer (log 16); it refuses nothing. -/
theorem exec_cases (i : Instr) (s : State) :
    (∃ t, exec i s = .next t) ∨
    (exec i s = .fault .bufferIndex ∧
      ((∃ b, i = .pay b ∨ i = .payLast b) ∧ 64 ≤ s.fill.toNat ∨ (∃ b, i = .csumOk b) ∧ 64 < s.plen.toNat)) := by
  by_cases hf : i.format = .frame
  · obtain ⟨t, ht, -⟩ := commandEffect_exec s hf
    exact .inl ⟨t, ht⟩
  cases i with
  | pay b =>
    obtain hlt | hge := Nat.lt_or_ge s.fill.toNat 64
    · exact .inl ⟨_, exec_pay b hlt⟩
    · exact .inr ⟨exec_pay_outside b hge, .inl ⟨⟨b, .inl rfl⟩, hge⟩⟩
  | payLast b =>
    obtain hlt | hge := Nat.lt_or_ge s.fill.toNat 64
    · exact .inl ⟨_, exec_payLast b hlt⟩
    · exact .inr ⟨exec_payLast_outside b hge, .inl ⟨⟨b, .inr rfl⟩, hge⟩⟩
  | csumOk b =>
    obtain hle | hgt := le_or_gt s.plen.toNat 64
    · obtain ⟨t, ht, -⟩ := commandEffect_csumOk b hle
      exact .inl ⟨t, ht⟩
    · exact .inr ⟨exec_csumOk_outside b hgt, .inr ⟨⟨b, rfl⟩, hgt⟩⟩
  | syncHit | syncMiss | typeByte | lenZero | lenOk | lenOver | csumBad | wdExpire | burstNext | burstEnd =>
    exact .inl ⟨_, rfl⟩
  | _ => exact absurd rfl hf

/-- The burst sequencer always gives a next state. -/
theorem burstPhase_next (s : State) : ∃ t, burstPhase exec s = .next t := by
  obtain ⟨-, h⟩ | ⟨-, -, h⟩ | ⟨-, -, h⟩ := burstPhase_cases s <;> exact ⟨_, h⟩

/-- A cycle whose time fits is refused by nothing. -/
theorem step_ne_refused {s : State} (h : timeFits (opened s).now = true) (r : Refusal) : step s ≠ .refused r := by
  cases hr : (nextCycle s).rstN
  · rw [step_reset h hr]; nofun
  rw [step_event ⟨hr, h⟩]
  obtain ⟨-, he⟩ | ⟨b, rest, -, -, he⟩ := eventOf_cases (opened s) <;> rw [he]
  · obtain ⟨t, ht⟩ := burstPhase_next (afterWatchdog (opened s))
    rw [stepEvent_tick, ht]; nofun
  · rw [stepEvent_byte, bytePhase]
    split
    · nofun
    · obtain ⟨t, ht⟩ | ⟨hf, -⟩ := exec_cases (decodeByte ‹_› b) (consume (afterWatchdog (opened s)))
      · rw [ht]; nofun
      · rw [hf]; nofun

/-- Settles O30. -/
theorem stepRunsDecodedByteOperation : Obligations.StepRunsDecodedByteOperation := by
  intro s u c b rest hc hd hx hu hctx
  rw [eq_afterWatchdog hu] at hctx ⊢
  exact ⟨by rw [step_byte hc hd hx hctx, consume_eq (by simpa using hx)], decodeByte_wf c b⟩

/-- Settles O31: the three branches of the burst sequencer. -/
theorem stepRunsDueTimeOperations : Obligations.StepRunsDueTimeOperations := by
  intro s u hc ht hu
  rw [step_tick hc ht, ← eq_afterWatchdog hu]
  exact ⟨burstPhase_more, burstPhase_done, burstPhase_notOver⟩

/-- Settles O38. -/
theorem resetCycleLoadsResetValues : Obligations.ResetCycleLoadsResetValues := fun _ hf hr =>
  ⟨_, step_reset hf hr, ⟨rfl, rfl, rfl, rfl⟩, rfl, rfl, fun _ => rfl, rfl, rfl, rfl, rfl, rfl, rfl, rfl⟩

/-- Settles O39: a cycle is refused exactly if its time does not fit. -/
theorem stepRefusesExactlyWrappingTime : Obligations.StepRefusesExactlyWrappingTime := by
  intro s
  cases hf : timeFits (opened s).now
  · refine iff_of_true ⟨_, step_refused hf⟩ ?_
    have hn : ¬ (timeFits (opened s).now = true) := by rw [hf]; decide
    rw [timeFits_iff] at hn
    omega
  · refine iff_of_false (fun ⟨r, hr⟩ => step_ne_refused hf r hr) ?_
    have := timeFits_iff.1 hf
    omega

end Sys2Proof.Proofs
end

section
/-! The invariant of the registers (10_state.md section 8): it holds at reset and every step keeps it, so no step faults. -/

namespace Sys2Proof.Proofs

open Sys2Proof.Machine Sys2Proof.Safety Sys2Proof.Laws

/-! ### Updates that keep the invariant -/

theorem inv_opened {s : State} (h : Inv s) : Inv (opened s) := { h with }

theorem inv_consume {s : State} (h : Inv s) : Inv (consume s) := { h with }

theorem inv_emit {s : State} (a : Action) (h : Inv s) : Inv (emit a s) := { h with }

/-- An emptied frame meets every clause about the frame. -/
theorem inv_frameReset {s : State} (h : Inv s) : Inv (frameReset s) :=
  { h with
    plenLe := by simp
    fillLe := by simp
    inPayload := nofun
    inChecksum := nofun
    inMagic := fun _ => ⟨rfl, rfl, rfl⟩
    inType := nofun
    inLength := nofun
    inBurst := fun hb => ⟨rfl, (h.inBurst hb).2⟩ }

theorem inv_parserDrop {s : State} (c : Cause) (h : Inv s) : Inv (parserDrop c s) := inv_frameReset (inv_emit _ h)

theorem inv_afterWatchdog {s : State} (h : Inv s) : Inv (afterWatchdog s) := by
  obtain ⟨-, ha⟩ | ⟨-, ha⟩ := afterWatchdog_cases s <;> rw [ha]
  · exact h
  · exact inv_parserDrop .timeout h

theorem inv_resetRegisters {s : State} (h : Inv s) : Inv (resetRegisters s) :=
  { inv_frameReset h with inBurst := nofun, inIdle := fun _ => rfl }

theorem inv_handedOver {s : State} (t : Byte) (p : List Byte) (h : Inv s) : Inv (handedOver t p s) := by
  unfold handedOver wake
  split
  · exact inv_emit _ (inv_emit _ h)
  · exact inv_emit _ h

theorem inv_startBurst {s : State} (b : Byte) (x y : Half) (h : Inv s) (hst : s.stage = .awaitingMagic)
    (hf : timeFits s.now = true) : Inv (startBurst b x y s) :=
  { h with
    inBurst := fun _ => ⟨hst, by simp⟩
    inIdle := nofun
    dDeadlineFits := (timeFits_iff.1 hf).2 }

theorem inv_continueBurst {s : State} (h : Inv s) (hb : s.dstage = .burst) (h3 : s.dSent.toNat < 3)
    (hf : timeFits s.now = true) : Inv (continueBurst s) :=
  { h with
    inBurst := fun _ => ⟨(h.inBurst hb).1, fun h0 => by have := dSent_succ h3; simp_all⟩
    inIdle := fun hi => nomatch hb.symm.trans hi
    dDeadlineFits := (timeFits_iff.1 hf).2 }

theorem inv_endBurst {s : State} (h : Inv s) : Inv (endBurst s) := { h with inBurst := nofun, inIdle := fun _ => rfl }

theorem CommandEffect.inv {i : Instr} {s t : State} (h : CommandEffect s i t) (hs : Inv s)
    (hst : s.stage = .awaitingMagic) (hf : timeFits s.now = true) : Inv t := by
  cases h with
  | mouseReport p => exact inv_startBurst _ _ _ (inv_emit _ hs) hst hf
  | _ => exact inv_emit _ hs

/-! ### The operations and the step -/

/-- A byte operation that applies in the state keeps the invariant. -/
theorem inv_byteOperation {s t : State} {c : ByteCtx} {b : Byte} (hs : Inv s) (hidle : s.dstage = .idle)
    (hf : timeFits s.now = true) (hc : byteCtx s = some c) (h : exec (decodeByte c b) s = .next t) : Inv t := by
  obtain ⟨hbyte, hrow, -⟩ := decodeByte_row c b
  have hwf := decodeByte_wf c b
  generalize decodeByte c b = i at h hbyte hrow hwf
  obtain ⟨hst, hmore, -⟩ := byteCtx_eq hs.plenLe hc
  have harm := (timeFits_iff.1 hf).1
  have hburst {P : Prop} : s.dstage = .burst → P := fun hb => nomatch hidle.symm.trans hb
  cases effect_of_exec h with
  | syncHit =>
    have h0 : s.stage = .awaitingMagic := by simpa [rowApplies, hst] using hrow
    exact { hs with
      inPayload := nofun, inChecksum := nofun, inMagic := nofun, inLength := nofun
      inType := fun _ => hs.inMagic h0
      inBurst := hburst, deadlineFits := harm }
  | syncMiss => exact inv_emit _ hs
  | typeByte b =>
    have h0 : s.stage = .awaitingType := by simpa [rowApplies, hst] using hrow
    exact { hs with
      inPayload := nofun, inChecksum := nofun, inMagic := nofun, inType := nofun
      inLength := fun _ => (hs.inType h0).2
      inBurst := hburst, deadlineFits := harm }
  | lenZero =>
    exact { hs with
      plenLe := Nat.zero_le _, fillLe := le_rfl
      inPayload := nofun, inMagic := nofun, inType := nofun, inLength := nofun
      inChecksum := fun _ => rfl
      inBurst := hburst, deadlineFits := harm }
  | lenOk b =>
    obtain ⟨h1, h64⟩ : 1 ≤ b.toNat ∧ b.toNat ≤ 64 := of_decide_eq_true hwf
    exact { hs with
      plenLe := h64, fillLe := Nat.zero_le _
      inChecksum := nofun, inMagic := nofun, inType := nofun, inLength := nofun
      inPayload := fun _ => h1
      inBurst := hburst, deadlineFits := harm }
  | lenOver | csumBad => exact inv_parserDrop _ hs
  | pay b inside =>
    have h0 : s.stage = .awaitingPayload ∧ s.fill.toNat + 1 < s.plen.toNat := by
      simpa [rowApplies, hst, hmore, moreDue_iff] using hrow
    have hsucc := fill_succ inside
    exact { hs with
      bufWf := wf_write inside hs.bufWf
      fillLe := hsucc.trans_le (Nat.le_of_lt h0.2)
      inPayload := fun _ => hsucc.trans_lt h0.2
      inChecksum := fun he => nomatch h0.1.symm.trans he
      inMagic := fun he => nomatch h0.1.symm.trans he
      inType := fun he => nomatch h0.1.symm.trans he
      inLength := fun he => nomatch h0.1.symm.trans he }
  | payLast b inside =>
    have h0 : s.stage = .awaitingPayload ∧ s.plen.toNat ≤ s.fill.toNat + 1 := by
      simpa [rowApplies, hst, hmore, moreDue] using hrow
    have hlast : s.fill.toNat + 1 = s.plen.toNat := le_antisymm (hs.inPayload h0.1) h0.2
    have hsucc := (fill_succ inside).trans hlast
    exact { hs with
      bufWf := wf_write inside hs.bufWf
      fillLe := hsucc.le
      inPayload := nofun, inMagic := nofun, inType := nofun, inLength := nofun
      inChecksum := fun _ => hsucc
      inBurst := hburst }
  | csumOk b t fits cmd =>
    exact cmd.inv (inv_handedOver _ _ (inv_frameReset hs)) (by simp) (by simpa using hf)
  | wdExpire | burstNext | burstEnd => cases hrow
  | command i t frame => exact nomatch hbyte.symm.trans frame

theorem inv_burstPhase {s t : State} (h : Inv s) (hf : timeFits s.now = true) (ht : burstPhase exec s = .next t) :
    Inv t := by
  obtain ⟨-, he⟩ | ⟨hp, h3, he⟩ | ⟨hp, -, he⟩ := burstPhase_cases s <;> rw [he] at ht <;> cases ht
  · exact h
  · exact inv_continueBurst (inv_emit _ h) (pauseOver_iff.1 hp).1 h3 hf
  · exact inv_endBurst h

/-- Settles O41: a reset cycle, a tick and a byte, each by the operations it runs. -/
theorem stepKeepsInvariants : Obligations.StepKeepsInvariants := by
  intro s t hs h
  obtain ⟨hf, ⟨-, rfl⟩ | ⟨-, -, h⟩ | ⟨-, b, rest, c, hd, hx, hc, h⟩⟩ := step_cases h
  · exact inv_resetRegisters (inv_opened hs)
  · exact inv_burstPhase (inv_afterWatchdog (inv_opened hs)) (by simpa using hf) h
  · rw [← consume_eq (by simpa using hx)] at h
    exact inv_byteOperation (inv_consume (inv_afterWatchdog (inv_opened hs))) (by simpa using hd) (by simpa using hf) hc h

/-- Settles O40. -/
theorem resetStateSatisfiesInvariants : Obligations.ResetStateSatisfiesInvariants := by
  refine ⟨?_, ⟨.nil, nofun, nofun, by decide⟩, ⟨rfl, rfl, rfl, rfl⟩, rfl, rfl⟩
  constructor <;> decide

/-- The byte operation of a state of the invariant meets no index outside the buffer. -/
theorem byteOperation_next {s : State} (hs : Inv s) {c : ByteCtx} (hc : byteCtx s = some c) (b : Byte) :
    ∃ t, exec (decodeByte c b) (consume s) = .next t := by
  obtain hnext | ⟨-, ⟨⟨b', hi⟩, h64⟩ | ⟨-, h64⟩⟩ := exec_cases (decodeByte c b) (consume s)
  · exact hnext
  · obtain ⟨-, hrow, -⟩ := decodeByte_row c b
    have hst : s.stage = .awaitingPayload := by
      rw [← (byteCtx_eq hs.plenLe hc).1]
      obtain hi | hi := hi <;> rw [hi] at hrow <;> simp_all [rowApplies]
    exact absurd h64 (Nat.not_le.2 ((hs.inPayload hst).trans_le hs.plenLe))
  · exact absurd hs.plenLe (Nat.not_le.2 h64)

theorem step_next {s : State} (hs : Inv s) (hf : timeFits (opened s).now = true) : ∃ t, step s = .next t := by
  cases hr : (nextCycle s).rstN
  · exact ⟨_, step_reset hf hr⟩
  obtain ⟨ht, -⟩ | ⟨b, rest, hd, hx, -⟩ := eventOf_cases (opened s)
  · rw [step_tick ⟨hr, hf⟩ ht]
    exact burstPhase_next _
  · have hinv := inv_afterWatchdog (inv_opened hs)
    have hctx := byteCtx_of_le hinv.plenLe
    rw [step_byte ⟨hr, hf⟩ hd hx hctx]
    exact byteOperation_next hinv hctx b

/-- Settles O43. -/
theorem stepNeverStops : Obligations.StepNeverStops := by
  refine fun s hs => ⟨fun f => ?_, step_next hs⟩
  cases hf : timeFits (opened s).now
  · rw [step_refused hf]; nofun
  · obtain ⟨t, ht⟩ := step_next hs hf
    rw [ht]; nofun

/-- Settles O52: the writers by operation, the bounds by the invariant of the next state. -/
theorem fillCountWriters : Obligations.FillCountWriters :=
  ⟨fun _ _ _ h => fill_of_exec h, fun s t hs h =>
    have ht := stepKeepsInvariants s t hs h
    ⟨ht.fillLe, ht.fillLe.trans ht.plenLe⟩⟩

end Sys2Proof.Proofs
end

section
/-! Single steps from a state of the invariant (44_step_and_laws.md section 3): a matching checksum byte, a late byte, a
stalled frame, a burst. -/

namespace Sys2Proof.Proofs

open Sys2Proof.Machine Sys2Proof.Safety Sys2Proof.Laws

theorem decodeCommand_wf (t : Byte) {p : List Byte} (h : p.length ≤ 64) : (decodeCommand t p).wf = true := by
  have hp : payloadFits p = true := decide_eq_true h
  rw [decodeCommand]
  simp only [apply_ite Instr.wf]
  simp only [Instr.wf, hp, ite_self]

/-- Settles O32: inside its window the matching byte runs `CSUM_OK`, which is the command in the state that the hand-over
leaves. -/
theorem stepRunsDecodedFrameCommand : Obligations.StepRunsDecodedFrameCommand := by
  intro s b rest p hs hc hd hst hnow hx hp hb
  have hw : afterWatchdog (opened s) = opened s := afterWatchdog_inTime hnow
  have hctx := byteCtx_awaitingChecksum (s := opened s) hst hs.plenLe
  have hlen : p.length = s.plen.toNat := by rw [hp, length_readList]
  have hstep : step s = exec (.csumOk b) (consume (opened s)) := by
    rw [step_byte hc hd hx (by rw [hw]; exact hctx), decodeByte_awaitingChecksum, hw, if_pos]
    rw [hb, hp]; rfl
  refine ⟨handedOver s.ptype p (frameReset (consume (opened s))), ?_, decodeCommand_wf _ (hlen ▸ hs.plenLe),
    frameEmpty_handedOver _ _ _, by simpa using hd, fun _ => by simp, ?_, by simp, by simp, ?_⟩
  · rw [hstep, exec_csumOk (s := consume (opened s)) b hs.plenLe, runCommand_eq_exec, hp]
    rfl
  · rw [handedOver_rx, frameReset_rx, consume_rx, hx, List.tail_cons]
  · cases hz : (nextCycle s).suspended <;> simp [handedOver_trace, wakeActions, hz]

/-- Settles O33: the watchdog empties the frame, then the byte meets AwaitingMagic. -/
theorem lateByteExaminedAsMagic : Obligations.LateByteExaminedAsMagic := by
  intro s b rest hs hc hd hst hlate hx
  have hw : afterWatchdog (opened s) = parserDrop .timeout (opened s) := afterWatchdog_late hst hlate
  have hctx := byteCtx_of_le (s := afterWatchdog (opened s)) (inv_afterWatchdog (inv_opened hs)).plenLe
  rw [step_byte hc hd hx hctx, hw, parserDrop_stage, decodeByte_awaitingMagic]
  have hrest : (opened s).rx.tail = rest := by rw [hx, List.tail_cons]
  split
  next hb =>
    exact ⟨_, exec_syncHit _, hrest, rfl, rfl, rfl, fun _ => rfl, ⟨rfl, rfl, rfl, rfl, rfl, rfl⟩,
      fun _ => ⟨rfl, rfl, rfl⟩, fun hn => absurd hb hn⟩
  next hb =>
    exact ⟨_, exec_syncMiss b _, hrest, rfl, rfl, rfl, fun _ => rfl, ⟨rfl, rfl, rfl, rfl, rfl, rfl⟩,
      fun he => absurd he hb, fun _ => ⟨rfl, rfl, by simp⟩⟩

/-- Settles O34: a frame in flight excludes a burst, so the step is the watchdog alone. -/
theorem stalledFrameAbandoned : Obligations.StalledFrameAbandoned := by
  intro s hs hc hx hlate hst
  have hd : s.dstage = .idle := by
    cases hb : s.dstage
    · rfl
    · exact absurd (hs.inBurst hb).1 hst
  have hw : afterWatchdog (opened s) = parserDrop .timeout (opened s) := afterWatchdog_late hst hlate
  rw [step_tick hc (.inr hx), hw, burstPhase_notOver (pauseOver_idle (by simpa using hd))]
  exact ⟨_, rfl, ⟨rfl, rfl, rfl, rfl⟩, fun _ => rfl, ⟨rfl, rfl, rfl, rfl, rfl, rfl⟩, rfl, rfl⟩

theorem deliveries_append (l l' : List (Nat × Action)) : deliveries (l ++ l') = deliveries l ++ deliveries l' :=
  List.filterMap_append ..

/-- A burst excludes a frame in flight, so the step of a burst is the burst sequencer alone. -/
theorem step_burst {s : State} (hs : Inv s) (hc : StepCycle s) (hb : s.dstage = .burst) :
    step s = burstPhase exec (opened s) := by
  rw [step_tick hc (.inl hb), afterWatchdog_awaitingMagic (s := opened s) (hs.inBurst hb).1]

/-- Settles O35: the three branches of the burst sequencer. -/
theorem burstHoldsInput : Obligations.BurstHoldsInput := by
  intro s hs hc hb
  rw [step_burst hs hc hb]
  obtain ⟨-, he⟩ | ⟨hp, -, he⟩ | ⟨hp, -, he⟩ := burstPhase_cases (opened s) <;> rw [he] <;>
    refine ⟨_, rfl, rfl, ⟨rfl, rfl, rfl, rfl, rfl⟩, fun _ => rfl, rfl, rfl, rfl, ?_, fun hnow => ?_⟩
  · rfl
  · exact ⟨⟨rfl, rfl, rfl, rfl, rfl, rfl⟩, rfl⟩
  · rw [continueBurst_trace, emit_trace, deliveries_append]
    exact List.append_nil _
  · exact absurd (pauseOver_iff.1 hp).2 (Nat.not_le.2 hnow)
  · rfl
  · exact absurd (pauseOver_iff.1 hp).2 (Nat.not_le.2 hnow)

end Sys2Proof.Proofs
end

section
/-! What a step appends to the trace (44_step_and_laws.md sections 2, 4 and 6): laws of the actions of one step, and the
invariant of the trace. -/

namespace Sys2Proof.Proofs

open Sys2Proof.Machine Sys2Proof.Safety Sys2Proof.Laws

/-! ### The actions of a step by kind -/

@[simp] theorem mem_wakeActions {a : Action} {z : Bool} : a ∈ wakeActions z ↔ a = .wakeReq ∧ z = true := by
  cases z <;> simp [wakeActions]

/-- A wakeup request counts for no kind but its own. -/
theorem countP_wakeActions {f : Action → Bool} (hf : f .wakeReq = false) (z : Bool) : (wakeActions z).countP f = 0 :=
  List.countP_eq_zero.2 fun a ha => by rw [(mem_wakeActions.1 ha).1, hf]; nofun

theorem count_wakeActions_le (z : Bool) : (wakeActions z).count .wakeReq ≤ 1 := by cases z <;> decide

/-- After the watchdog's mark a step hands one packet over, in the order of D25, or does nothing of the kind. -/
theorem tail_delivers_or_not {s t : State} {tail : List Action} (h : Tail s t tail) :
    (∃ p a, HandsOver s t p ∧ tail = [.deliver s.ptype p.length p] ++ wakeActions (opened s).devSuspended ++ [a] ∧
      isDeliver a = false ∧ a ≠ .wakeReq) ∨
    (∀ a ∈ tail, isDeliver a = false ∧ a ≠ .wakeReq) := by
  cases h with
  | quiet => exact .inr nofun
  | mark c => exact .inr (by simp [isDeliver])
  | repeated => exact .inr (by simp [isDeliver])
  | dropped p c h => exact .inl ⟨p, _, h, rfl, rfl, nofun⟩
  | keyboard p h => exact .inl ⟨p, _, h, rfl, rfl, nofun⟩
  | mouse p h => exact .inl ⟨p, _, h, rfl, rfl, nofun⟩

/-- The only action of a mark list is a drop. -/
theorem eq_drop_of_mem_marks {s t : State} {marks tail : List Action} (h : Shape s t marks tail) {a : Action}
    (ha : a ∈ marks) : a = .drop .timeout := by
  obtain rfl | rfl := h.marked
  · cases ha
  · exact List.mem_singleton.1 ha

/-- Only the actions after the watchdog's mark matter to an action that is no drop. -/
theorem mem_stepActions_iff {s t : State} {marks tail : List Action} (h : Shape s t marks tail) {a : Action}
    (ha : isDrop a = false) : a ∈ stepActions s t ↔ a ∈ tail := by
  rw [h.stepActions_eq, List.mem_append, or_iff_right]
  intro hm
  rw [eq_drop_of_mem_marks h hm] at ha
  cases ha

/-- A hand-over among the actions of a step is that of the frame in flight, and the only one. -/
theorem handsOver_of_mem {s t : State} {marks tail : List Action} {ty : Byte} {n : Nat} {p : List Byte}
    (h : Shape s t marks tail) (hm : .deliver ty n p ∈ stepActions s t) :
    HandsOver s t p ∧ ty = s.ptype ∧ n = p.length := by
  rw [mem_stepActions_iff h rfl] at hm
  obtain ⟨q, a, hq, rfl, ha, -⟩ | hnone := tail_delivers_or_not h.kind
  · simp at hm
    obtain ⟨rfl, rfl, rfl⟩ | rfl := hm
    · exact ⟨hq, rfl, rfl⟩
    · cases ha
  · exact nomatch (hnone _ hm).1

/-- How many actions of each kind stand after the watchdog's mark, and what that does to the reports still owed. -/
theorem tail_counts {s t : State} {tail : List Action} (h : Tail s t tail) :
    tail.countP isDeliver ≤ 1 ∧ tail.count .wakeReq ≤ 1 ∧ tail.countP isReport ≤ 1 ∧ tail.countP isDrop ≤ 1 ∧
      tail.countP isReport + owed t ≤ owed s + 3 * tail.countP isDeliver := by
  have hwake := count_wakeActions_le (opened s).devSuspended
  have hdel := countP_wakeActions (f := isDeliver) rfl
  have hrep := countP_wakeActions (f := isReport) rfl
  have hdrop := countP_wakeActions (f := isDrop) rfl
  cases h with
  | quiet _ less => simpa using less
  | mark c _ idle' => simp [isDeliver, isReport, isDrop, owed, idle']
  | repeated _ less => simpa [isDeliver, isReport, isDrop, Nat.add_comm] using less
  | dropped p c _ idle' | keyboard p _ idle' | mouse p _ idle' =>
    simp [List.countP_cons, isDeliver, isReport, isDrop, owed, *] at hwake ⊢
    omega

/-- The watchdog's mark is one drop, or nothing. -/
theorem marks_counts {s t : State} {marks tail : List Action} (h : Shape s t marks tail) :
    marks.countP isDeliver = 0 ∧ marks.count .wakeReq = 0 ∧ marks.countP isReport = 0 ∧ marks.countP isDrop ≤ 1 := by
  obtain rfl | rfl := h.marked <;> decide

/-- Settles O44. -/
theorem atMostOneActionOfEachKind : Obligations.AtMostOneActionOfEachKind := by
  intro s t h
  obtain ⟨marks, tail, hsh⟩ := step_shape h
  obtain ⟨hd, hw, hr, hdrop, -⟩ := tail_counts hsh.kind
  obtain ⟨hd', hw', hr', hdrop'⟩ := marks_counts hsh
  rw [hsh.stepActions_eq]
  refine ⟨hsh.trace, ?_⟩
  simp only [List.countP_append, List.count_append]
  omega

/-- Settles O45. -/
theorem deliveryNeedsMatchingChecksum : Obligations.DeliveryNeedsMatchingChecksum := by
  intro s t ty n p _ h hm
  obtain ⟨marks, tail, hsh⟩ := step_shape h
  obtain ⟨⟨hidle, hst, hw, hfits, hp, hoff, hemp⟩, rfl, rfl⟩ := handsOver_of_mem hsh hm
  have hlen : p.length = s.plen.toNat := by rw [hp, length_readList]
  have hnow : (opened s).now ≤ s.deadline := le_deadline_of_not_expired hw (by rw [opened_stage, hst]; nofun)
  exact ⟨hst, hnow, rfl, hlen, hlen ▸ hfits, rfl, by rw [hlen, hp], hemp, hoff⟩

/-- Settles O46: of the kinds of a step's actions, a mouse report stands in two and a keyboard report in one. -/
theorem reportsComeFromPackets : Obligations.ReportsComeFromPackets := by
  intro s t h
  obtain ⟨marks, tail, hsh⟩ := step_shape h
  have hready := hsh.devReady
  refine ⟨fun b x y hm => ?_, fun m k hm => ?_⟩ <;> rw [mem_stepActions_iff hsh rfl] at hm
  · cases hk : hsh.kind with
    | mouse p hp burst' _ type long ready =>
      refine .inr ⟨hp.idle, burst', hready.trans ready, p, long, ?_, by simpa using hm⟩
      rw [mem_stepActions_iff hsh rfl, ← type]; simp
    | repeated burst => exact .inl ⟨burst, by simpa using hm⟩
    | _ => simp at hm
  · cases hk : hsh.kind with
    | keyboard p hp _ type long ready =>
      refine ⟨hready.trans ready, p, long, ?_, by simpa using hm⟩
      rw [mem_stepActions_iff hsh rfl, ← type]; simp
    | _ => simp at hm

/-- Settles O47. -/
theorem wakeupExactlyWhenDeliveredSuspended : Obligations.WakeupExactlyWhenDeliveredSuspended := by
  intro s t h
  obtain ⟨marks, tail, hsh⟩ := step_shape h
  rw [mem_stepActions_iff hsh rfl]
  simp only [mem_stepActions_iff hsh (a := .deliver _ _ _) rfl]
  obtain ⟨p, a, -, rfl, -, ha⟩ | hnone := tail_delivers_or_not hsh.kind
  · have hdel : ∃ ty n q, .deliver ty n q ∈ [.deliver s.ptype p.length p] ++ wakeActions (opened s).devSuspended ++ [a] :=
      ⟨s.ptype, p.length, p, by simp⟩
    rw [and_iff_right hdel]
    simp [Ne.symm ha]
  · exact iff_of_false (fun hm => (hnone _ hm).2 rfl) fun ⟨⟨ty, n, q, hm⟩, _⟩ => nomatch (hnone _ hm).1

/-- Settles O48: without a hand-over and outside a burst nothing but marks is left. -/
theorem silentWithoutDelivery : Obligations.SilentWithoutDelivery := by
  intro s t hidle h hnone
  obtain ⟨marks, tail, hsh⟩ := step_shape h
  have hdel {p : List Byte} {acts : List Action} : tail ≠ [.deliver s.ptype p.length p] ++ acts := fun he =>
    nomatch hnone (.deliver s.ptype p.length p) ((mem_stepActions_iff hsh rfl).2 (by rw [he]; simp))
  have hobs : (∀ a ∈ tail, isDrop a = true) → observable t.trace = observable s.trace := fun hall => by
    rw [observable, hsh.trace, List.filter_append, ← observable, List.append_right_eq_self, List.filter_eq_nil_iff]
    intro e he
    obtain ⟨a, ha, rfl⟩ := List.mem_map.1 he
    obtain hm | hm := List.mem_append.1 ha
    · simp [eq_drop_of_mem_marks hsh hm, isDrop]
    · simp [hall a hm]
  cases hk : hsh.kind with
  | quiet idle => exact ⟨hobs nofun, idle hidle⟩
  | mark c _ idle' => exact ⟨hobs (by simp [isDrop]), idle'⟩
  | repeated burst => exact nomatch hidle.symm.trans burst
  | dropped => exact absurd (List.append_assoc ..) hdel
  | keyboard => exact absurd (List.append_assoc ..) hdel
  | mouse => exact absurd (List.append_assoc ..) hdel

/-! ### The invariant of the trace -/

theorem count_append (f : Action → Bool) (tr : List (Nat × Action)) (now : Nat) (acts : List Action) :
    count f (tr ++ acts.map (fun a => (now, a))) = count f tr + acts.countP f := by
  rw [count, List.countP_append, List.countP_map]
  rfl

theorem now_le_of_step {s t : State} {marks tail : List Action} (h : Shape s t marks tail) : s.now ≤ t.now := by
  rw [h.now, opened_now]
  exact Nat.le_add_right ..

/-- Settles O42: the new entries are stamped with the step's `now`, and the counts of its actions balance. -/
theorem stepKeepsTraceLaws : Obligations.StepKeepsTraceLaws := by
  intro s t _ htr h
  obtain ⟨marks, tail, hsh⟩ := step_shape h
  have hmono := now_le_of_step hsh
  have hstamp {e : Nat × Action} (he : e ∈ (marks ++ tail).map (fun a => (t.now, a))) :
      e.1 = t.now ∧ e.2 ∈ stepActions s t := by
    obtain ⟨a, ha, rfl⟩ := List.mem_map.1 he
    exact ⟨rfl, by rwa [hsh.stepActions_eq]⟩
  constructor
  case ordered =>
    rw [hsh.trace, List.pairwise_append]
    refine ⟨htr.ordered, ?_, fun e he f hf => ?_⟩
    · exact List.pairwise_map.2 (List.pairwise_of_forall fun _ _ => le_rfl)
    · exact (htr.past e he).trans (hmono.trans (hstamp hf).1.ge)
  case past =>
    intro e he
    rw [hsh.trace] at he
    obtain he | he := List.mem_append.1 he
    · exact (htr.past e he).trans hmono
    · exact (hstamp he).1.le
  case lengths =>
    intro e he ty l p hdel
    rw [hsh.trace] at he
    obtain he | he := List.mem_append.1 he
    · exact htr.lengths e he ty l p hdel
    · obtain ⟨hp, -, hl⟩ := handsOver_of_mem hsh (hdel ▸ (hstamp he).2)
      exact ⟨hl, by rw [hl, hp.payload, length_readList]; exact hp.fits⟩
  case reports =>
    obtain ⟨-, -, -, -, hbal⟩ := tail_counts hsh.kind
    obtain ⟨hd', -, hr', -⟩ := marks_counts hsh
    have hold := htr.reports
    rw [hsh.trace, count_append, count_append, List.countP_append, List.countP_append]
    omega

end Sys2Proof.Proofs
end

section
/-! The output ports of a cycle (10_state.md section 10): bit positions, and the pulses of a step's actions. -/

namespace Sys2Proof.Proofs

open Sys2Proof.Machine Sys2Proof.Safety Sys2Proof.Laws

/-! ### Bit positions -/

/-- The eight bits that a byte shifted in below `w` takes. -/
theorem extractLsb'_shiftIn_zero (w : BitVec 512) (b : Byte) :
    (w <<< 8 ||| b.setWidth 512).extractLsb' 0 8 = b := by
  ext j hj
  simp [BitVec.getElem_extractLsb', hj]
  omega

/-- Above it stand the bits of `w`, eight places higher. -/
theorem extractLsb'_shiftIn_succ (w : BitVec 512) (b : Byte) {i : Nat} (hi : i + 1 < 64) :
    (w <<< 8 ||| b.setWidth 512).extractLsb' (8 * (i + 1)) 8 = w.extractLsb' (8 * i) 8 := by
  ext j hj
  have hlt : 8 * (i + 1) + j < 512 := by omega
  have hsub : 8 * (i + 1) + j - 8 = 8 * i + j := by omega
  have hb : b.getLsbD (8 * (i + 1) + j) = false := BitVec.getLsbD_of_ge b _ (by omega)
  have hge : ¬ 8 * (i + 1) + j < 8 := by omega
  simp only [BitVec.getElem_extractLsb', BitVec.getLsbD_or, BitVec.getLsbD_shiftLeft, BitVec.getLsbD_setWidth, hlt,
    hge, hsub, hb]
  simp

theorem extractLsb'_packPayload (p : List Byte) (w : BitVec 512) {i : Nat} (h : i < p.length) (h64 : p.length ≤ 64) :
    (packPayload w p).extractLsb' (8 * i) 8 = p[i] := by
  induction p generalizing w i with
  | nil => cases h
  | cons b p ih =>
    rw [packPayload]
    cases i with
    | zero => exact extractLsb'_shiftIn_zero _ b
    | succ i =>
      rw [List.length_cons] at h h64
      rw [extractLsb'_shiftIn_succ _ b (by omega), ih _ (by omega) (by omega), List.getElem_cons_succ]

theorem extractLsb'_packKeycodes (k : Keycodes) :
    (packKeycodes k).extractLsb' 0 8 = k.key1 ∧ (packKeycodes k).extractLsb' 8 8 = k.key2 ∧
    (packKeycodes k).extractLsb' 16 8 = k.key3 ∧ (packKeycodes k).extractLsb' 24 8 = k.key4 ∧
    (packKeycodes k).extractLsb' 32 8 = k.key5 ∧ (packKeycodes k).extractLsb' 40 8 = k.key6 := by
  simp (disch := decide) only [packKeycodes, BitVec.extractLsb'_append_eq_of_le, BitVec.extractLsb'_append_eq_right,
    BitVec.extractLsb'_eq_self, Nat.reduceSub, and_self]

/-- Settles O57. -/
theorem portBitPositions : Obligations.PortBitPositions :=
  ⟨extractLsb'_packKeycodes, fun w p _ h h64 => extractLsb'_packPayload p w h h64⟩

/-! ### Pulses -/

/-- A mark of the watchdog raises no port (R201). -/
theorem foldl_pulse_marks {s t : State} {marks tail : List Action} (h : Shape s t marks tail) (q : OutPorts) :
    marks.foldl pulse q = q := by
  obtain rfl | rfl := h.marked <;> rfl

/-- The wakeup request of a dispatch raises its own port only. -/
theorem foldl_pulse_wakeActions (z : Bool) (q : OutPorts) :
    (wakeActions z).foldl pulse q = { q with wakeReq := q.wakeReq || z } := by
  cases z <;> simp [wakeActions, pulse]

/-- The ports of a cycle are those of the actions after the watchdog's mark. -/
theorem outPorts_eq {s t : State} {marks tail : List Action} (h : Shape s t marks tail) :
    outPorts s t = tail.foldl pulse (quietPorts (rxReady s) s.cycles) := by
  rw [outPorts, h.stepActions_eq, List.foldl_append, foldl_pulse_marks h]

/-- Settles O56: kind by kind of what a step does, its pulses are its actions. -/
theorem portsCarryStepActions : Obligations.PortsCarryStepActions := by
  intro s t h
  obtain ⟨marks, tail, hsh⟩ := step_shape h
  have hready : rxReady s = true ↔ (nextCycle s).rstN = true ∧ s.dstage = .idle := by simp [rxReady]
  rw [outPorts_eq hsh]
  simp only [mem_stepActions_iff hsh (a := .wakeReq) rfl, mem_stepActions_iff hsh (a := .mouseReport _ _ _) rfl,
    mem_stepActions_iff hsh (a := .kbdReport _ _) rfl, mem_stepActions_iff hsh (a := .deliver _ _ _) rfl]
  cases hk : hsh.kind with
  | quiet | mark | repeated => simp +contextual [quietPorts, pulse, hready]
  | dropped p | keyboard p | mouse p =>
    simp +contextual [List.foldl_append, foldl_pulse_wakeActions, quietPorts, pulse, hready]

end Sys2Proof.Proofs
end

section
/-! The causes of drops (60_exceptions.md section 1): by operation, and by step with its condition. -/

namespace Sys2Proof.Proofs

open Sys2Proof.Machine Sys2Proof.Safety Sys2Proof.Laws

/-! ### The state in which a byte operation runs -/

theorem timeoutMarks_of_drop {z : Bool} {c : Cause} (h : .drop c ∈ timeoutMarks z) : c = .timeout ∧ z = true := by
  cases z
  · cases h
  · exact ⟨by cases List.mem_singleton.1 h; rfl, rfl⟩

/-- A frame in flight when its byte is judged is the one before the step, inside its window. -/
theorem frameInTime {s : State} (h : (afterWatchdog (opened s)).stage ≠ .awaitingMagic) :
    afterWatchdog (opened s) = opened s ∧ (opened s).now ≤ s.deadline :=
  inTime_of_afterWatchdog h

/-- In AwaitingMagic when its byte is judged, the parser was there before or its window has expired. -/
theorem magic_or_late {s : State} (h : (afterWatchdog (opened s)).stage = .awaitingMagic) :
    s.stage = .awaitingMagic ∨ s.deadline < (opened s).now := by
  obtain ⟨-, ha⟩ | ⟨hw, -⟩ := afterWatchdog_cases (opened s)
  · exact .inl (by rwa [ha] at h)
  · exact .inr (wdExpired_iff.1 hw).2

/-- The actions of a byte operation stand behind the watchdog's mark. -/
theorem stepActions_byte {s t : State} {i : Instr} (h : exec i (consume (afterWatchdog (opened s))) = .next t) :
    stepActions s t = timeoutMarks (wdExpired (opened s)) ++ stepActions (consume (afterWatchdog (opened s))) t := by
  obtain ⟨-, ⟨acts, hem⟩, -⟩ := operationsRespectOwnership _ _ _ h
  rw [stepActions_of_emitted hem]
  rw [Emitted, consume_trace, afterWatchdog_trace, opened_trace] at hem
  simp [stepActions, hem, Function.comp_def]

/-- Where a step's drop comes from: the watchdog, or the operation of the byte it takes. -/
theorem drop_of_step {s t : State} {c : Cause} (h : step s = .next t) (hc : .drop c ∈ stepActions s t) :
    (c = .timeout ∧ wdExpired (opened s) = true) ∨
    (∃ b x, s.dstage = .idle ∧ (opened s).rx.head? = some b ∧ byteCtx (afterWatchdog (opened s)) = some x ∧
      exec (decodeByte x b) (consume (afterWatchdog (opened s))) = .next t ∧
      .drop c ∈ stepActions (consume (afterWatchdog (opened s))) t) := by
  obtain ⟨-, ⟨-, rfl⟩ | ⟨-, -, h⟩ | ⟨-, b, rest, x, hd, hx, hctx, h⟩⟩ := step_cases h
  · simp [stepActions] at hc
  · obtain ⟨-, h'⟩ | ⟨-, -, h'⟩ | ⟨-, -, h'⟩ := burstPhase_cases (afterWatchdog (opened s)) <;>
      rw [h'] at h <;> cases h <;>
      exact .inl (timeoutMarks_of_drop (by simpa [stepActions, afterWatchdog_trace, Function.comp_def] using hc))
  · rw [← consume_eq (by simpa using hx)] at h
    rw [stepActions_byte h, List.mem_append] at hc
    obtain hc | hc := hc
    · exact .inl (timeoutMarks_of_drop hc)
    · exact .inr ⟨b, x, hd, by rw [hx]; rfl, hctx, h, hc⟩

/-! ### The conditions -/

/-- What a drop at dispatch says of its packet (R200, codes 5 to 7). -/
inductive PacketDrop (ready : Bool) (t : Byte) (p : List Byte) : Cause → Prop
  | undersized (h : t = 0x01 ∧ p.length < 5 ∨ t = 0x02 ∧ p.length < 7) : PacketDrop ready t p .undersized
  | notReady (r : ready = false) (h : t = 0x01 ∧ 5 ≤ p.length ∨ t = 0x02 ∧ 7 ≤ p.length) : PacketDrop ready t p .notReady
  | reserved (h1 : t ≠ 0x01) (h2 : t ≠ 0x02) : PacketDrop ready t p .reserved

theorem decodeCommand_eq_mouse {t : Byte} {p q : List Byte} (h : decodeCommand t p = .mouse q) : t = 0x01 ∧ p = q := by
  by_cases h1 : t = 0x01
  · rw [h1, decodeCommand_mouse] at h; cases h; exact ⟨h1, rfl⟩
  by_cases h2 : t = 0x02
  · rw [h2, decodeCommand_keyboard] at h; cases h
  have := isReserved_decodeCommand p h1 h2
  rw [h] at this; cases this

theorem decodeCommand_eq_keyboard {t : Byte} {p q : List Byte} (h : decodeCommand t p = .keyboard q) :
    t = 0x02 ∧ p = q := by
  by_cases h1 : t = 0x01
  · rw [h1, decodeCommand_mouse] at h; cases h
  by_cases h2 : t = 0x02
  · rw [h2, decodeCommand_keyboard] at h; cases h; exact ⟨h2, rfl⟩
  have := isReserved_decodeCommand p h1 h2
  rw [h] at this; cases this

theorem CommandDrop.packetDrop {ready : Bool} {t : Byte} {p : List Byte} {c : Cause}
    (h : CommandDrop ready (decodeCommand t p) c) : PacketDrop ready t p c := by
  generalize hj : decodeCommand t p = j at h
  cases h with
  | mouseShort q hl => obtain ⟨ht, rfl⟩ := decodeCommand_eq_mouse hj; exact .undersized (.inl ⟨ht, hl⟩)
  | keyboardShort q hl => obtain ⟨ht, rfl⟩ := decodeCommand_eq_keyboard hj; exact .undersized (.inr ⟨ht, hl⟩)
  | mouseNotReady q hl hr => obtain ⟨ht, rfl⟩ := decodeCommand_eq_mouse hj; exact .notReady hr (.inl ⟨ht, hl⟩)
  | keyboardNotReady q hl hr => obtain ⟨ht, rfl⟩ := decodeCommand_eq_keyboard hj; exact .notReady hr (.inr ⟨ht, hl⟩)
  | reserved _ hr =>
    refine .reserved ?_ ?_ <;> rintro rfl
    · rw [decodeCommand_mouse] at hj; subst hj; cases hr
    · rw [decodeCommand_keyboard] at hj; subst hj; cases hr

/-- The condition of the table for a drop that a step marks (R200). -/
inductive StepDrop (s t : State) : Cause → Prop
  | badMagic (b : Byte) (other : b ≠ 0xAA) (offered : (opened s).rx.head? = some b) (idle : s.dstage = .idle)
      (stage : s.stage = .awaitingMagic ∨ s.deadline < (opened s).now) : StepDrop s t .badMagic
  | oversize (b : Byte) (large : 65 ≤ b.toNat) (offered : (opened s).rx.head? = some b) (idle : s.dstage = .idle)
      (stage : s.stage = .awaitingLength) (inTime : (opened s).now ≤ s.deadline) : StepDrop s t .oversize
  | badChecksum (b : Byte) (differs : b ≠ checksum s.ptype s.plen (s.buf.readList s.plen.toNat))
      (offered : (opened s).rx.head? = some b) (idle : s.dstage = .idle) (stage : s.stage = .awaitingChecksum)
      (inTime : (opened s).now ≤ s.deadline) : StepDrop s t .badChecksum
  | timeout (stage : s.stage ≠ .awaitingMagic) (late : s.deadline < (opened s).now) : StepDrop s t .timeout
  | dispatched (c : Cause) (ty : Byte) (p : List Byte) (delivered : .deliver ty p.length p ∈ stepActions s t)
      (drop : PacketDrop (opened s).devReady ty p c) : StepDrop s t c

/-- Every drop of a step from a state of the invariant meets the table's condition. -/
theorem stepDrop_of_step {s t : State} {c : Cause} (hs : Inv s) (h : step s = .next t)
    (hc : .drop c ∈ stepActions s t) : StepDrop s t c := by
  obtain ⟨rfl, hw⟩ | ⟨b, x, hidle, hoff, hctx, h, hc⟩ := drop_of_step h hc
  · obtain ⟨hst, hlate⟩ := wdExpired_iff.1 hw
    exact .timeout hst hlate
  obtain ⟨hstage, -, hsum⟩ := byteCtx_eq (inv_afterWatchdog (inv_opened hs)).plenLe hctx
  obtain ⟨hbyte, hrow, henc⟩ := decodeByte_row x b
  have hwf := decodeByte_wf x b
  have hacts := stepActions_byte h
  generalize decodeByte x b = i at h hbyte hrow henc hwf
  cases dropBy_of_exec h hc with
  | badMagic b' =>
    cases henc
    have hst : (afterWatchdog (opened s)).stage = .awaitingMagic := by rw [← hstage]; exact of_decide_eq_true hrow
    exact .badMagic b (of_decide_eq_true hwf) hoff hidle (magic_or_late hst)
  | oversize b' =>
    cases henc
    have hst : (afterWatchdog (opened s)).stage = .awaitingLength := by rw [← hstage]; exact of_decide_eq_true hrow
    obtain ⟨ha, hnow⟩ := frameInTime (by rw [hst]; nofun)
    exact .oversize b (of_decide_eq_true (p := 64 < b.toNat) hwf) hoff hidle (by rwa [ha] at hst) hnow
  | badChecksum b' =>
    cases henc
    obtain ⟨hst, hne⟩ : x.stage = .awaitingChecksum ∧ b ≠ x.expected := by simpa [rowApplies] using hrow
    rw [hstage] at hst
    obtain ⟨ha, hnow⟩ := frameInTime (by rw [hst]; nofun)
    rw [ha] at hst hsum
    exact .badChecksum b (fun he => hne (he.trans (hsum hst).symm)) hoff hidle hst hnow
  | timeout => cases hbyte
  | command performs drop =>
    obtain rfl | ⟨b', rfl, rfl⟩ := performs
    · cases drop with
      | reserved _ hr => exact nomatch hbyte.symm.trans (format_of_isReserved hr)
      | _ => cases hbyte
    · cases effect_of_exec h with
      | command _ _ frame => cases frame
      | csumOk _ _ _ cmd =>
        obtain ⟨a, hf⟩ := cmd.deliveryFrame
        rw [stepActions_of_emitted hf.emitted] at hacts
        refine .dispatched c _ _ ?_ (by simpa using drop.packetDrop)
        rw [hacts, length_readList]
        simp

/-- Settles O60: the operations by `dropBy_codes`, the steps by `StepDrop`. -/
theorem dropCauseNamesItsOperation : Obligations.DropCauseNamesItsOperation := by
  refine ⟨fun i s t c h hc => dropBy_codes (dropBy_of_exec h hc), fun s t c hs h hc => ?_⟩
  cases stepDrop_of_step hs h hc with
  | badMagic b h1 h2 h3 h4 => exact ⟨fun _ => ⟨b, h1, h2, h3, h4⟩, nofun, nofun, nofun, nofun, nofun, nofun⟩
  | oversize b h1 h2 h3 h4 h5 => exact ⟨nofun, fun _ => ⟨b, h1, h2, h3, h4, h5⟩, nofun, nofun, nofun, nofun, nofun⟩
  | badChecksum b h1 h2 h3 h4 h5 =>
    exact ⟨nofun, nofun, fun _ => ⟨b, h1, h2, h3, h4, h5⟩, nofun, nofun, nofun, nofun⟩
  | timeout h1 h2 => exact ⟨nofun, nofun, nofun, fun _ => ⟨h1, h2⟩, nofun, nofun, nofun⟩
  | dispatched c ty p hdel drop =>
    cases drop with
    | undersized h => exact ⟨nofun, nofun, nofun, nofun, fun _ => ⟨ty, p, hdel, h⟩, nofun, nofun⟩
    | notReady r h => exact ⟨nofun, nofun, nofun, nofun, nofun, fun _ => ⟨r, ty, p, hdel, h⟩, nofun⟩
    | reserved h1 h2 => exact ⟨nofun, nofun, nofun, nofun, nofun, nofun, fun _ => ⟨ty, p, hdel, h1, h2⟩⟩

end Sys2Proof.Proofs
end

section
/-! Other answers of the device (60_exceptions.md sections 2 and 8, R43): they reach the block at a delivery only. -/

namespace Sys2Proof.Proofs

open Sys2Proof.Machine Sys2Proof.Safety Sys2Proof.Laws

/-- The state with other answers of the device on its ports. -/
def answered (ready suspended : Bool) (s : State) : State := { s with devReady := ready, devSuspended := suspended }

/-- The same cycle with other answers of the device, in front of the rest of a script. -/
def rescripted (ready suspended : Bool) (c : Cycle) (rest : List Cycle) (s : State) : State :=
  { s with script := { c with ready := ready, suspended := suspended } :: rest }

section

variable {s : State} {c : Cycle} {rest : List Cycle} (ready suspended : Bool) (hscript : s.script = c :: rest)

include hscript

theorem nextCycle_of_script : nextCycle s = c := by rw [nextCycle, hscript]

theorem opened_rescripted : opened (rescripted ready suspended c rest s) = answered ready suspended (opened s) := by
  rw [opened, opened, nextCycle_of_script hscript]
  simp only [rescripted, nextCycle, openCycle, answered, hscript, List.tail_cons]

theorem stepCycle_rescripted (h : StepCycle s) : StepCycle (rescripted ready suspended c rest s) := by
  obtain ⟨hr, hf⟩ := h
  rw [nextCycle_of_script hscript] at hr
  exact ⟨hr, by rw [opened_rescripted ready suspended hscript]; exact hf⟩

end

theorem afterWatchdog_answered (r z : Bool) (s : State) :
    afterWatchdog (answered r z s) = answered r z (afterWatchdog s) := by
  simp only [afterWatchdog, apply_ite (answered r z)]
  rfl

/-- The burst sequencer does not ask the device (R160, D12). -/
theorem burstPhase_answered (r z : Bool) {s t : State} (h : burstPhase exec s = .next t) :
    burstPhase exec (answered r z s) = .next (answered r z t) := by
  have hp : pauseOver (answered r z s) = pauseOver s := rfl
  obtain ⟨ho, h'⟩ | ⟨ho, h3, h'⟩ | ⟨ho, h3, h'⟩ := burstPhase_cases s <;> rw [h'] at h <;> cases h
  · exact burstPhase_notOver (hp.trans ho)
  · exact burstPhase_more (hp.trans ho) h3
  · exact burstPhase_done (hp.trans ho) h3

/-- No byte operation but `CSUM_OK` asks the device. -/
theorem exec_answered (r z : Bool) {i : Instr} {s t : State} (hbyte : i.format = .byte) (hc : ∀ b, i ≠ .csumOk b)
    (h : exec i s = .next t) : exec i (answered r z s) = .next (answered r z t) := by
  cases effect_of_exec h with
  | pay b inside => exact exec_pay b inside
  | payLast b inside => exact exec_payLast b inside
  | csumOk b => exact absurd rfl (hc b)
  | command _ _ frame => exact nomatch hbyte.symm.trans frame
  | _ => rfl

/-- `CSUM_OK` asks the device, but only for its dispatch: the parser and the input it leaves do not depend on the
answers. -/
theorem csumOk_answered (r z : Bool) {b : Byte} {s t : State} (h : exec (.csumOk b) s = .next t) :
    (∃ ty n p, .deliver ty n p ∈ stepActions s t) ∧
    ∃ u, exec (.csumOk b) (answered r z s) = .next u ∧ SameParser t u ∧ SameBuffer t u ∧ u.rx = t.rx := by
  cases effect_of_exec h with
  | command _ _ frame => cases frame
  | csumOk _ _ fits cmd =>
    obtain ⟨u, hu, cmd'⟩ := commandEffect_csumOk b (s := answered r z s) fits
    obtain ⟨a, hf⟩ := cmd.deliveryFrame
    obtain ⟨a', hf'⟩ := cmd'.deliveryFrame
    obtain ⟨e1, e2, e3, e4⟩ := hf.empty
    obtain ⟨e1', e2', e3', e4'⟩ := hf'.empty
    have hdel : .deliver s.ptype s.plen.toNat (s.buf.readList s.plen.toNat) ∈ stepActions s t := by
      rw [stepActions_of_emitted hf.emitted]; simp
    refine ⟨⟨_, _, _, hdel⟩, u, hu, ?_, fun _ => ?_, hf'.environment.rx.trans hf.environment.rx.symm⟩
    · exact ⟨e1'.trans e1.symm, e2'.trans e2.symm, e3'.trans e3.symm, e4'.trans e4.symm,
        hf'.deadline.trans hf.deadline.symm⟩
    · rw [hf.buf, hf'.buf]; rfl

/-- Settles O54: every branch of the step but that of `CSUM_OK` carries the other answers along unread. -/
theorem deviceAnswersMatterOnlyAtDelivery : Obligations.DeviceAnswersMatterOnlyAtDelivery := by
  intro s t c rest ready suspended hscript h
  change ∃ u, step (rescripted ready suspended c rest s) = .next u ∧ _
  have hopen := opened_rescripted ready suspended hscript
  have hwd := afterWatchdog_answered ready suspended (opened s)
  have hsame : step (rescripted ready suspended c rest s) = .next (answered ready suspended t) →
      ∃ u, step (rescripted ready suspended c rest s) = .next u ∧ SameParser t u ∧ SameBuffer t u ∧ u.rx = t.rx ∧
        ((∀ a ∈ stepActions s t, isDeliver a = false) → SameDispatcher t u ∧ u.trace = t.trace) := fun hu =>
    ⟨_, hu, ⟨rfl, rfl, rfl, rfl, rfl⟩, fun _ => rfl, rfl, fun _ => ⟨⟨rfl, rfl, rfl, rfl, rfl, rfl⟩, rfl⟩⟩
  obtain ⟨hf, ⟨hr, rfl⟩ | ⟨hr, ht, h⟩ | ⟨hr, b, tail, x, hd, hx, hctx, h⟩⟩ := step_cases h
  · refine hsame ?_
    rw [nextCycle_of_script hscript] at hr
    rw [step_reset (s := rescripted ready suspended c rest s) (by rw [hopen]; exact hf) hr, hopen]
    rfl
  · have hcyc := stepCycle_rescripted ready suspended hscript ⟨hr, hf⟩
    refine hsame ?_
    rw [step_tick hcyc (by rw [hopen]; exact ht), hopen, hwd]
    exact burstPhase_answered ready suspended h
  · have hcyc := stepCycle_rescripted ready suspended hscript ⟨hr, hf⟩
    rw [← consume_eq (by simpa using hx)] at h
    have hstep : step (rescripted ready suspended c rest s) =
        exec (decodeByte x b) (answered ready suspended (consume (afterWatchdog (opened s)))) := by
      rw [step_byte hcyc (by rw [hopen]; exact hd) (by rw [hopen]; exact hx) (by rw [hopen, hwd]; exact hctx), hopen, hwd]
      rfl
    by_cases hcsum : ∃ b', decodeByte x b = .csumOk b'
    · obtain ⟨b', hi⟩ := hcsum
      rw [hi] at h hstep
      obtain ⟨⟨ty, n, p, hdel⟩, u, hu, hpar, hbuf, hrx⟩ := csumOk_answered ready suspended h
      refine ⟨u, hstep.trans hu, hpar, hbuf, hrx, fun hnone => ?_⟩
      rw [stepActions_byte h] at hnone
      exact nomatch hnone _ (List.mem_append_right _ hdel)
    · refine hsame (hstep.trans ?_)
      exact exec_answered ready suspended (decodeByte_row x b).1 (fun b' hi => hcsum ⟨b', hi⟩) h

end Sys2Proof.Proofs
end

section
/-! Dead registers (10_state.md section 9): two states that differ in them only take the same step. -/

namespace Sys2Proof.Proofs

open Sys2Proof.Machine Sys2Proof.Safety Sys2Proof.Laws

/-- Two runs side by side: the states differ in dead registers only, and the same entries have been added to the traces
`tr` and `tr'` with which they began. -/
structure Twin (tr tr' : List (Nat × Action)) (s s' : State) : Prop where
  equiv : Equiv s s'
  trace : ∃ l, s.trace = tr ++ l ∧ s'.trace = tr' ++ l

section

variable {tr tr' : List (Nat × Action)} {s s' : State}

theorem twin_opened (h : Equiv s s') : Twin s.trace s'.trace (opened s) (opened s') := by
  obtain ⟨e1, e2, e3, e4, e5, e6⟩ := h.env
  have hc : nextCycle s' = nextCycle s := by rw [nextCycle, nextCycle, e5, e6]
  refine ⟨{ h with env := ?_ }, [], by simp⟩
  constructor <;> simp [*]

theorem Twin.emit (h : Twin tr tr' s s') (a : Action) : Twin tr tr' (emit a s) (emit a s') := by
  obtain ⟨he, l, h1, h2⟩ := h
  refine ⟨{ he with env := { he.env with } }, l ++ [(s.now, a)], ?_, ?_⟩
  · rw [emit_trace, h1, List.append_assoc]
  · rw [emit_trace, h2, he.env.now, List.append_assoc]

theorem Twin.frameReset (h : Twin tr tr' s s') : Twin tr tr' (frameReset s) (frameReset s') :=
  ⟨{ h.equiv with
      stage := rfl, ptype := rfl, plen := rfl, fill := rfl
      buf := fun _ ha => nomatch ha
      deadline := fun hn => absurd rfl hn
      env := { h.equiv.env with } }, h.trace⟩

theorem Twin.parserDrop (h : Twin tr tr' s s') (c : Cause) : Twin tr tr' (parserDrop c s) (parserDrop c s') :=
  (h.emit _).frameReset

theorem Twin.consume (h : Twin tr tr' s s') : Twin tr tr' (consume s) (consume s') :=
  ⟨{ h.equiv with env := { h.equiv.env with rx := congrArg List.tail h.equiv.env.rx } }, h.trace⟩

theorem Twin.resetRegisters (h : Twin tr tr' s s') : Twin tr tr' (resetRegisters s) (resetRegisters s') :=
  ⟨{ h.frameReset.equiv with
      dstage := rfl, dSent := rfl, burstRegs := nofun, env := { h.equiv.env with } }, h.trace⟩

/-- A header byte arms both deadlines at the same time; the cells from the fill count on stay dead. -/
theorem Twin.headerWrite (h : Twin tr tr' s s') (st : Stage) {ty ty' n n' : Byte} {f f' : BitVec 7} (hty : ty' = ty)
    (hn : n' = n) (hf : f' = f) (hle : f.toNat ≤ s.fill.toNat) :
    Twin tr tr' (armDeadline { s with stage := st, ptype := ty, plen := n, fill := f })
      (armDeadline { s' with stage := st, ptype := ty', plen := n', fill := f' }) :=
  ⟨{ h.equiv with
      stage := rfl, ptype := hty, plen := hn, fill := hf
      buf := fun a ha => h.equiv.buf a (ha.trans_le hle)
      deadline := fun _ => congrArg (· + Config.timeoutTicks) h.equiv.env.now
      env := { h.equiv.env with } }, h.trace⟩

/-- A payload byte is written to the same cell, which lives from then on (R38). -/
theorem Twin.payloadWrite (h : Twin tr tr' s s') (hwf : s.buf.wf = true) (hwf' : s'.buf.wf = true) (b : Byte)
    {st st' : Stage} (hst' : st' = st) (hst : s.stage ≠ .awaitingMagic) (hlt : s.fill.toNat < 64) :
    Twin tr tr' { s with buf := s.buf.write s.fill.toNat b, fill := s.fill + 1, stage := st }
      { s' with buf := s'.buf.write s'.fill.toNat b, fill := s'.fill + 1, stage := st' } :=
  ⟨{ h.equiv with
      stage := hst'
      fill := congrArg (· + 1) h.equiv.fill
      buf := fun a ha => by
        have hle : a ≤ s.fill.toNat := Nat.lt_succ_iff.1 (ha.trans_eq (fill_succ hlt))
        change (s'.buf.write s'.fill.toNat b).read a = (s.buf.write s.fill.toNat b).read a
        rw [h.equiv.fill]
        obtain rfl | hne := eq_or_ne a s.fill.toNat
        · rw [read_write_same hwf, read_write_same hwf']
        · rw [read_write_other hne, read_write_other hne]
          exact h.equiv.buf a (lt_of_le_of_ne hle hne)
      deadline := fun _ => h.equiv.deadline hst
      env := { h.equiv.env with } }, h.trace⟩

theorem Twin.startBurst (h : Twin tr tr' s s') (b : Byte) (x y : Half) :
    Twin tr tr' (startBurst b x y s) (startBurst b x y s') :=
  ⟨{ h.equiv with
      dstage := rfl, dSent := rfl
      burstRegs := fun _ => ⟨congrArg (· + Config.pauseTicks) h.equiv.env.now, rfl, rfl, rfl⟩
      env := { h.equiv.env with } }, h.trace⟩

theorem Twin.continueBurst (h : Twin tr tr' s s') : Twin tr tr' (continueBurst s) (continueBurst s') :=
  ⟨{ h.equiv with
      dSent := congrArg (· + 1) h.equiv.dSent
      burstRegs := fun hb => ⟨congrArg (· + Config.pauseTicks) h.equiv.env.now, (h.equiv.burstRegs hb).2⟩
      env := { h.equiv.env with } }, h.trace⟩

theorem Twin.endBurst (h : Twin tr tr' s s') : Twin tr tr' (endBurst s) (endBurst s') :=
  ⟨{ h.equiv with dstage := rfl, dSent := rfl, burstRegs := nofun, env := { h.equiv.env with } }, h.trace⟩

theorem Twin.handedOver (h : Twin tr tr' s s') (t : Byte) (p : List Byte) :
    Twin tr tr' (handedOver t p s) (handedOver t p s') := by
  have hw := h.emit (.deliver t p.length p)
  unfold Laws.handedOver wake
  rw [hw.equiv.env.devSuspended]
  split
  · exact hw.emit _
  · exact hw

/-! ### What the step decides by -/

theorem Twin.wdExpired (h : Twin tr tr' s s') : wdExpired s' = wdExpired s := by
  by_cases hst : s.stage = .awaitingMagic
  · simp [Machine.wdExpired, h.equiv.stage, hst]
  · simp [Machine.wdExpired, h.equiv.stage, h.equiv.deadline hst, h.equiv.env.now]

theorem Twin.afterWatchdog (h : Twin tr tr' s s') : Twin tr tr' (afterWatchdog s) (afterWatchdog s') := by
  unfold Safety.afterWatchdog
  rw [h.wdExpired]
  split
  · exact h.parserDrop _
  · exact h

theorem Twin.pauseOver (h : Twin tr tr' s s') : pauseOver s' = pauseOver s := by
  cases hb : s.dstage with
  | idle => simp [Machine.pauseOver, h.equiv.dstage, hb]
  | burst => simp [Machine.pauseOver, h.equiv.dstage, h.equiv.env.now, (h.equiv.burstRegs hb).1]

/-- The frame in flight is alive: both buffers hold the same payload when its checksum is judged. -/
theorem Twin.payload (h : Twin tr tr' s s') (hs : Inv s) (hst : s.stage = .awaitingChecksum) :
    s'.buf.readList s'.plen.toNat = s.buf.readList s.plen.toNat := by
  rw [h.equiv.plen]
  exact readList_congr fun a ha => h.equiv.buf a (by rwa [hs.inChecksum hst])

theorem Twin.byteCtx (h : Twin tr tr' s s') (hs : Inv s) (hs' : Inv s') : byteCtx s' = byteCtx s := by
  rw [byteCtx_of_le hs.plenLe, byteCtx_of_le hs'.plenLe]
  have hmore : moreDue s' = moreDue s := by rw [moreDue, moreDue, h.equiv.fill, h.equiv.plen]
  by_cases hst : s.stage = .awaitingChecksum
  · have hp := h.payload hs hst
    rw [h.equiv.plen] at hp
    simp only [checkedLength, h.equiv.stage, hst, if_true, hp, hmore, h.equiv.ptype, h.equiv.plen]
  · simp only [checkedLength, h.equiv.stage, hst, if_false, hmore, h.equiv.ptype, h.equiv.plen]
    rfl

/-! ### The operations and the step -/

theorem Twin.command {i : Instr} {t : State} (h : Twin tr tr' s s') (ht : CommandEffect s i t) :
    ∃ t', exec i s' = .next t' ∧ Twin tr tr' t t' := by
  have hr := h.equiv.env.devReady
  cases ht with
  | mouseReport p hl hrdy =>
    refine ⟨_, ?_, (h.emit (.mouseReport (mouseButtons p) (mouseX p) (mouseY p))).startBurst _ _ _⟩
    simp [exec_mouse, execMouse, Nat.not_lt.2 hl, hr, hrdy]
  | keyboardReport p hl hrdy =>
    refine ⟨_, ?_, h.emit (.kbdReport (kbdModifiers p) (kbdKeycodes p))⟩
    simp [exec_keyboard, execKeyboard, Nat.not_lt.2 hl, hr, hrdy]
  | dropped _ c reason => exact ⟨_, CommandDrop.exec (hr ▸ reason), h.emit _⟩

/-- A byte operation that applies in twin states leaves twin states. -/
theorem Twin.byteOperation {t : State} {c : ByteCtx} {b : Byte} (h : Twin tr tr' s s') (hs : Inv s) (hs' : Inv s')
    (hc : Machine.byteCtx s = some c) (ht : exec (decodeByte c b) s = .next t) :
    ∃ t', exec (decodeByte c b) s' = .next t' ∧ Twin tr tr' t t' := by
  obtain ⟨hbyte, hrow, -⟩ := decodeByte_row c b
  obtain ⟨hst, -, -⟩ := byteCtx_eq hs.plenLe hc
  have he := h.equiv
  generalize decodeByte c b = i at ht hbyte hrow
  cases effect_of_exec ht with
  | syncHit => exact ⟨_, exec_syncHit s', h.headerWrite _ he.ptype he.plen he.fill le_rfl⟩
  | syncMiss b => exact ⟨_, exec_syncMiss b s', h.emit _⟩
  | typeByte b => exact ⟨_, exec_typeByte b s', h.headerWrite _ rfl he.plen he.fill le_rfl⟩
  | lenZero => exact ⟨_, exec_lenZero s', h.headerWrite _ he.ptype rfl rfl (Nat.zero_le _)⟩
  | lenOk b => exact ⟨_, exec_lenOk b s', h.headerWrite _ he.ptype rfl rfl (Nat.zero_le _)⟩
  | lenOver b => exact ⟨_, exec_lenOver b s', h.parserDrop _⟩
  | csumBad b => exact ⟨_, exec_csumBad b s', h.parserDrop _⟩
  | pay b inside =>
    have h0 : s.stage = .awaitingPayload := by rw [← hst]; simp_all [rowApplies]
    exact ⟨_, exec_pay b (by rwa [he.fill]),
      h.payloadWrite hs.bufWf hs'.bufWf b he.stage (by rw [h0]; nofun) inside⟩
  | payLast b inside =>
    have h0 : s.stage = .awaitingPayload := by rw [← hst]; simp_all [rowApplies]
    exact ⟨_, exec_payLast b (by rwa [he.fill]),
      h.payloadWrite hs.bufWf hs'.bufWf b rfl (by rw [h0]; nofun) inside⟩
  | csumOk b t fits cmd =>
    have h0 : s.stage = .awaitingChecksum := by rw [← hst]; simp_all [rowApplies]
    rw [exec_csumOk b (by rwa [he.plen]), runCommand_eq_exec, h.payload hs h0, he.ptype]
    exact (h.frameReset.handedOver _ _).command cmd
  | wdExpire | burstNext | burstEnd => cases hbyte
  | command _ _ frame => exact nomatch hbyte.symm.trans frame

theorem Twin.burstPhase {t : State} (h : Twin tr tr' s s') (ht : burstPhase exec s = .next t) :
    ∃ t', burstPhase exec s' = .next t' ∧ Twin tr tr' t t' := by
  obtain ⟨hp, h'⟩ | ⟨hp, h3, h'⟩ | ⟨hp, h3, h'⟩ := burstPhase_cases s <;> rw [h'] at ht <;> cases ht
  · exact ⟨_, burstPhase_notOver (h.pauseOver.trans hp), h⟩
  · obtain ⟨-, hb, hx, hy⟩ := h.equiv.burstRegs (pauseOver_iff.1 hp).1
    rw [burstPhase_more (h.pauseOver.trans hp) (by rwa [h.equiv.dSent]), exec_burstNext, hb, hx, hy]
    exact ⟨_, rfl, (h.emit _).continueBurst⟩
  · rw [burstPhase_done (h.pauseOver.trans hp) (by rwa [h.equiv.dSent])]
    exact ⟨_, exec_burstEnd s', h.endBurst⟩

theorem Twin.stepActions_eq {t t' : State} (h : Twin s.trace s'.trace t t') : stepActions s' t' = stepActions s t := by
  obtain ⟨-, l, h1, h2⟩ := h
  simp [stepActions, h1, h2]

end

/-- Settles O49: each branch of the step keeps the two runs side by side. -/
theorem deadRegistersUnobservable : Obligations.DeadRegistersUnobservable := by
  intro s s' t hs hs' he h
  suffices hgoal : ∃ t', step s' = .next t' ∧ Twin s.trace s'.trace t t' by
    obtain ⟨t', ht', htwin⟩ := hgoal
    exact ⟨t', ht', htwin.stepActions_eq, htwin.equiv⟩
  have ho := twin_opened he
  have hw := ho.afterWatchdog
  have hnow := ho.equiv.env.now
  have hcycle : nextCycle s' = nextCycle s := by rw [nextCycle, nextCycle, he.env.script, he.env.cycles]
  obtain ⟨hf, ⟨hr, rfl⟩ | ⟨hr, ht, h⟩ | ⟨hr, b, rest, c, hd, hx, hc, h⟩⟩ := step_cases h <;>
    rw [← hnow] at hf <;> rw [← hcycle] at hr
  · exact ⟨_, step_reset hf hr, ho.resetRegisters⟩
  · rw [step_tick ⟨hr, hf⟩ (by rwa [ho.equiv.dstage, ho.equiv.env.rx])]
    exact hw.burstPhase h
  · have hi := inv_afterWatchdog (inv_opened hs)
    have hi' := inv_afterWatchdog (inv_opened hs')
    rw [← consume_eq (by simpa using hx)] at h
    rw [step_byte ⟨hr, hf⟩ (ho.equiv.dstage.trans hd) (ho.equiv.env.rx.trans hx) ((hw.byteCtx hi hi').trans hc)]
    exact hw.consume.byteOperation (inv_consume hi) (inv_consume hi') hc h

end Sys2Proof.Proofs
end

section
/-! Runs of a burst and runs without input (43_dispatcher.md section 5, 44_step_and_laws.md sections 4 and 6). -/

namespace Sys2Proof.Proofs

open Sys2Proof.Machine Sys2Proof.Safety Sys2Proof.Laws

/-! ### Runs -/

/-- A run of the machine is its first step and then the run from there. -/
theorem run_succ {k : Nat} {s u t : State} (h : step s = .next u) (hr : Host.Core.run core k u = .next t) :
    Host.Core.run core (k + 1) s = .next t :=
  (run_next (M := core) h).trans hr

/-- The cycle at the head of the script is a step of a run, if reset is not asserted and its time fits. -/
theorem stepCycle_of_script {s : State} {c : Cycle} {cs : List Cycle} (h : s.script = c :: cs) (hr : c.rstN = true)
    (hf : timeFits (s.now + c.advance) = true) : StepCycle s := by
  rw [StepCycle, opened_now, nextCycle_of_script h]
  exact ⟨hr, hf⟩

/-- Settles O36: an emission for each cycle but the last, which ends the burst; by induction on the cycles. -/
theorem burstRunsToItsEnd : Obligations.BurstRunsToItsEnd := by
  intro s c cs more hs hb hscript hlen hrst hpause hadv hfits
  induction cs generalizing s c with
  | nil =>
    have hcyc := stepCycle_of_script hscript (hrst c (by simp)) hfits
    have hover : pauseOver (opened s) = true :=
      pauseOver_iff.2 ⟨hb, by rw [opened_now, nextCycle_of_script hscript]; exact hpause⟩
    have hstep : step s = .next (endBurst (opened s)) := by
      rw [step_burst hs hcyc hb, burstPhase_done hover (by simp at hlen; simp [hlen]), exec_burstEnd]
    exact ⟨_, run_succ hstep rfl, rfl, rfl, (hs.inBurst hb).1, [], by simp, rfl⟩
  | cons c' cs ih =>
    rw [List.length_cons] at hlen
    rw [List.map_cons, List.sum_cons] at hfits
    have hcyc := stepCycle_of_script hscript (hrst c (by simp)) (timeFits_mono (by omega) hfits)
    have hnow : (opened s).now = s.now + c.advance := by rw [opened_now, nextCycle_of_script hscript]
    have hover : pauseOver (opened s) = true := pauseOver_iff.2 ⟨hb, by rw [hnow]; exact hpause⟩
    have h3 : s.dSent.toNat < 3 := by omega
    have hstep := step_burst hs hcyc hb
    rw [burstPhase_more hover h3, exec_burstNext] at hstep
    have hsent := dSent_succ h3
    obtain ⟨t, hrun, hidle, hsent0, hst, l, htr, hl⟩ := ih _ c' (stepKeepsInvariants _ _ hs hstep) hb
      (by simp [hscript]) (by rw [continueBurst_dSent, emit_dSent, opened_dSent, hsent]; omega)
      (fun k hk => hrst k (List.mem_cons_of_mem c hk))
      (by simpa using hadv c' (by simp)) (fun k hk => hadv k (List.mem_cons_of_mem c' hk))
      (by simpa [nextCycle_of_script hscript, Nat.add_assoc] using hfits)
    refine ⟨t, run_succ hstep hrun, hidle, hsent0, hst, ((opened s).now, .mouseReport s.dButtons s.dX s.dY) :: l,
      by rw [htr]; simp, ?_⟩
    rw [List.map_cons, hl, List.length_cons, List.replicate_succ]
    rfl

/-! ### The end of a run -/

/-- The deadlines lie at most a window and a pause ahead, as every deadline that a run arms does. -/
def Near (s : State) : Prop :=
  s.deadline ≤ s.now + Config.timeoutTicks ∧ s.dDeadline ≤ s.now + Config.pauseTicks

/-- How many late cycles a state still needs to settle, at most: four for a byte, which may begin a burst, one for each
operation of a burst in progress, one for a frame in flight. -/
def pending (s : State) : Nat :=
  4 * s.rx.length + (if s.dstage = .burst then 4 - s.dSent.toNat else 0) + (if s.stage = .awaitingMagic then 0 else 1)

theorem dDeadline_of_command {i : Instr} {s t : State} (h : CommandEffect s i t) :
    t.dDeadline = s.dDeadline ∨ t.dDeadline = s.now + Config.pauseTicks := by
  cases h with
  | mouseReport => exact .inr rfl
  | _ => exact .inl rfl

/-- An operation leaves each deadline or arms it. -/
theorem near_exec {i : Instr} {s t : State} (hs : Near s) (h : exec i s = .next t) : Near t := by
  obtain ⟨henv, -⟩ := operationsRespectOwnership i s t h
  have hd : t.deadline = s.deadline ∨ t.deadline = s.now + Config.timeoutTicks := by
    obtain ⟨harm, hleave⟩ := deadlineArmedByFourOperations i s t h
    exact (em _).elim (fun hi => .inr (harm hi)) (fun hi => .inl (hleave hi))
  have hdd : t.dDeadline = s.dDeadline ∨ t.dDeadline = s.now + Config.pauseTicks := by
    cases effect_of_exec h with
    | burstNext => exact .inr rfl
    | csumOk _ _ _ cmd => simpa using dDeadline_of_command cmd
    | command _ _ _ cmd => exact dDeadline_of_command cmd
    | _ => exact .inl rfl
  obtain ⟨h1, h2⟩ := hs
  rw [Near, henv.now]
  exact ⟨by omega, by omega⟩

theorem near_afterWatchdog {s : State} (h : Near s) : Near (afterWatchdog s) := by
  obtain ⟨-, ha⟩ | ⟨-, ha⟩ := afterWatchdog_cases s <;> rw [ha]
  · exact h
  · exact near_exec h (exec_wdExpire s)

theorem near_step {s t : State} (ho : Near (opened s)) (h : step s = .next t) : Near t := by
  have hw := near_afterWatchdog ho
  obtain ⟨-, ⟨-, rfl⟩ | ⟨-, -, h⟩ | ⟨-, b, rest, c, -, -, -, h⟩⟩ := step_cases h
  · exact ho
  · obtain ⟨-, h'⟩ | ⟨hp, h3, -⟩ | ⟨hp, h3, -⟩ := burstPhase_cases (afterWatchdog (opened s))
    · rw [h'] at h; cases h; exact hw
    · rw [burstPhase_more hp h3] at h; exact near_exec hw h
    · rw [burstPhase_done hp h3] at h; exact near_exec hw h
  · exact near_exec (s := { afterWatchdog (opened s) with rx := rest }) hw h

theorem script_of_step {s t : State} (h : step s = .next t) : t.script = s.script.tail := by
  obtain ⟨-, ⟨-, rfl⟩ | ⟨-, -, h⟩ | ⟨-, b, rest, c, -, -, -, h⟩⟩ := step_cases h
  · rfl
  · obtain ⟨-, h'⟩ | ⟨-, -, h'⟩ | ⟨-, -, h'⟩ := burstPhase_cases (afterWatchdog (opened s)) <;>
      rw [h'] at h <;> cases h <;> simp
  · obtain ⟨henv, -⟩ := operationsRespectOwnership _ _ _ h
    simpa using henv.script

/-- A burst has at most three operations to come, and no frame is in flight beside it. -/
theorem pending_le {s : State} (hs : Inv s) : pending s ≤ 4 * s.rx.length + 3 := by
  cases hb : s.dstage with
  | idle => simp only [pending, hb, reduceCtorEq, if_false]; split <;> omega
  | burst =>
    obtain ⟨hst, h0⟩ := hs.inBurst hb
    have : s.dSent.toNat ≠ 0 := fun hn => h0 (BitVec.eq_of_toNat_eq hn)
    simp only [pending, hb, hst, if_true]
    omega

/-- A step from `s` to `t` adds nothing to what is pending, and takes something away if it is late. -/
def Progress (s t : State) : Prop :=
  pending t ≤ pending s ∧ (s.deadline < (opened s).now → s.dDeadline ≤ (opened s).now → pending t ≤ pending s - 1)

section

variable {s t : State} (hs : Inv s) (hc : StepCycle s) (ha : (nextCycle s).arrivals = []) (h : step s = .next t)

include ha

theorem pending_opened : pending (opened s) = pending s := by
  rw [pending, opened_rx, ha, List.append_nil]
  rfl

include hc h

/-- A late cycle with nothing to take abandons the frame in flight. -/
theorem progress_tick (hd : s.dstage = .idle) (hx : s.rx = []) : Progress s t := by
  rw [step_tick hc (.inr (by simp [hx, ha])), burstPhase_notOver (pauseOver_idle (by simpa using hd))] at h
  cases h
  obtain ⟨hw, he⟩ | ⟨-, he⟩ := afterWatchdog_cases (opened s) <;> rw [he]
  · refine ⟨(pending_opened ha).le, fun hlate _ => ?_⟩
    by_cases hst : s.stage = .awaitingMagic
    · simp [pending, ha, hd, hx, hst]
    · exact absurd (le_deadline_of_not_expired hw hst) (Nat.not_le.2 hlate)
  · simp [Progress, pending, ha, hd, hx]

include hs

/-- A late cycle of a burst makes its next emission or ends it. -/
theorem progress_burst (hb : s.dstage = .burst) : Progress s t := by
  have hst := (hs.inBurst hb).1
  have hlt := s.dSent.isLt
  rw [step_burst hs hc hb] at h
  obtain ⟨hp, h'⟩ | ⟨-, h3, h'⟩ | ⟨-, -, h'⟩ := burstPhase_cases (opened s) <;> rw [h'] at h <;> cases h
  · refine ⟨(pending_opened ha).le, fun _ hdd => ?_⟩
    rw [(pauseOver_iff (s := opened s)).2 ⟨hb, hdd⟩] at hp
    cases hp
  · have hsent := dSent_succ h3
    simp only [opened_dSent] at hsent h3
    simp [Progress, pending, ha, hb, hst]
    omega
  · simp [Progress, pending, ha, hb, hst]
    omega

/-- A byte is worth more than the burst or the frame it can begin. -/
theorem progress_byte {b : Byte} {rest : List Byte} (hd : s.dstage = .idle) (hx : s.rx = b :: rest) : Progress s t := by
  have hle := pending_le (stepKeepsInvariants s t hs h)
  have hrx : (opened s).rx = b :: rest := by rw [opened_rx, ha, List.append_nil, hx]
  rw [step_byte hc hd hrx (byteCtx_of_le (inv_afterWatchdog (inv_opened hs)).plenLe)] at h
  obtain ⟨henv, -⟩ := operationsRespectOwnership _ _ _ h
  have hrest : t.rx = rest := by rw [henv.rx, consume_rx, afterWatchdog_rx, hrx, List.tail_cons]
  have hge : 4 * s.rx.length ≤ pending s := by simp only [pending]; omega
  rw [hrest] at hle
  rw [hx, List.length_cons] at hge
  exact ⟨by omega, fun _ _ => by omega⟩

theorem progress_step : Progress s t := by
  cases hb : s.dstage with
  | burst => exact progress_burst hs hc ha h hb
  | idle =>
    cases hx : s.rx with
    | nil => exact progress_tick hc ha h hb hx
    | cons b rest => exact progress_byte hs hc ha h hb hx

end

/-- With nothing pending and no arrivals to come the run has settled. -/
theorem settled_of_pending {s : State} (h : pending s = 0) (ha : ∀ c ∈ s.script, c.arrivals = []) : Settled s := by
  have hlt := s.dSent.isLt
  unfold pending at h
  split at h
  · omega
  next hb =>
    split at h
    next hst =>
      refine ⟨ha, List.length_eq_zero_iff.1 (by omega), ?_, hst⟩
      cases hd : s.dstage
      · rfl
      · exact absurd hd hb
    · omega

/-- Silent cycles, enough of them late, leave nothing pending; by induction on the cycles. -/
theorem run_silent {s : State} {cs more : List Cycle} (hs : Inv s) (hnear : Near s) (hscript : s.script = cs ++ more)
    (hsilent : ∀ k ∈ cs, Silent k) (henough : pending s ≤ cs.countP isLate)
    (hfits : timeFits (s.now + (cs.map Cycle.advance).sum) = true) :
    ∃ t, Host.Core.run core cs.length s = .next t ∧ t.script = more ∧ pending t = 0 := by
  induction cs generalizing s with
  | nil => exact ⟨s, rfl, hscript, by simpa using henough⟩
  | cons c cs ih =>
    obtain ⟨hr, ha⟩ := hsilent c (by simp)
    rw [List.map_cons, List.sum_cons, ← Nat.add_assoc] at hfits
    have hcyc := stepCycle_of_script hscript hr (timeFits_mono (by omega) hfits)
    have hnext := nextCycle_of_script hscript
    have hnow : (opened s).now = s.now + c.advance := by rw [opened_now, hnext]
    obtain ⟨t, ht⟩ := step_next hs hcyc.2
    obtain ⟨marks, tail, hsh⟩ := step_shape ht
    obtain ⟨hle, hlate⟩ := progress_step hs hcyc (by rw [hnext]; exact ha) ht
    obtain ⟨hd, hdd⟩ := hnear
    have hno : Near (opened s) := by
      rw [Near, hnow, opened_deadline, opened_dDeadline]
      exact ⟨by omega, by omega⟩
    have hpend : pending t ≤ cs.countP isLate := by
      cases hl : isLate c with
      | false =>
        rw [List.countP_cons_of_neg (by simp [hl])] at henough
        exact hle.trans henough
      | true =>
        rw [List.countP_cons_of_pos hl] at henough
        have hadv : Config.timeoutTicks < c.advance := of_decide_eq_true hl
        simp only [timeoutTicks_eq, pauseTicks_eq] at hd hdd hadv
        have := hlate (by rw [hnow]; omega) (by rw [hnow]; omega)
        omega
    obtain ⟨u, hrun, hmore, h0⟩ := ih (stepKeepsInvariants s t hs ht) (near_step hno ht)
      (by rw [script_of_step ht, hscript]; rfl) (fun k hk => hsilent k (List.mem_cons_of_mem c hk)) hpend
      (by rw [hsh.now, hnow]; exact hfits)
    exact ⟨u, run_succ ht hrun, hmore, h0⟩

/-- Settles O58: the first cycle brings the deadlines near, the late ones among the others use up what is pending. -/
theorem runSettlesOnceInputEnds : Obligations.RunSettlesOnceInputEnds := by
  intro s c cs more hs hscript hsilent hmore hd hdd henough hfits
  obtain ⟨hr, ha⟩ := hsilent c (by simp)
  have hcyc := stepCycle_of_script hscript hr (timeFits_mono (by omega) hfits)
  have hnext := nextCycle_of_script hscript
  have hnow : (opened s).now = s.now + c.advance := by rw [opened_now, hnext]
  obtain ⟨t, ht⟩ := step_next hs hcyc.2
  obtain ⟨marks, tail, hsh⟩ := step_shape ht
  obtain ⟨hle, -⟩ := progress_step hs hcyc (by rw [hnext]; exact ha) ht
  have hno : Near (opened s) := by rw [Near, hnow]; exact ⟨hd, hdd⟩
  obtain ⟨u, hrun, hu, h0⟩ := run_silent (stepKeepsInvariants s t hs ht) (near_step hno ht)
    (by rw [script_of_step ht, hscript]; rfl) (fun k hk => hsilent k (List.mem_cons_of_mem c hk))
    ((hle.trans (pending_le hs)).trans henough) (by rw [hsh.now, hnow]; exact hfits)
  exact ⟨u, run_succ ht hrun, hu, settled_of_pending h0 (by rw [hu]; exact hmore)⟩

end Sys2Proof.Proofs
end

section
/-! A frame taken within its windows (41_frame_parser.md sections 7 and 8): the run through its header, its payload and
its checksum byte. -/

namespace Sys2Proof.Proofs

open Sys2Proof.Machine Sys2Proof.Safety Sys2Proof.Laws

/-- An idle block in parse stage `st` at time `n`, with `rx` waiting and `script` to come, that has added nothing to the
trace `tr`. -/
structure Parsing (tr : List (Nat × Action)) (st : Stage) (script : List Cycle) (n : Nat) (rx : List Byte) (u : State) :
    Prop where
  inv    : Inv u
  idle   : u.dstage = .idle
  stage  : u.stage = st
  script : u.script = script
  now    : u.now = n
  rx     : u.rx = rx
  trace  : u.trace = tr

section

variable {tr : List (Nat × Action)} {st : Stage} {k : Cycle} {ks : List Cycle} {n : Nat} {b : Byte} {rx : List Byte}
  {u : State}

/-- A byte inside its window is judged in the stage in which it finds the parser (R183). -/
theorem Parsing.step_eq (h : Parsing tr st (k :: ks) n (b :: rx) u) (hr : k.rstN = true)
    (hf : timeFits (n + k.advance) = true) (hwin : st = .awaitingMagic ∨ n + k.advance ≤ u.deadline) {c : ByteCtx}
    (hc : byteCtx u = some c) : step u = exec (decodeByte c b) (consume (opened u)) := by
  have hnow : (opened u).now = n + k.advance := by rw [opened_now, nextCycle_of_script h.script, h.now]
  have hw : afterWatchdog (opened u) = opened u := by
    obtain hm | hle := hwin
    · exact afterWatchdog_awaitingMagic (h.stage.trans hm)
    · exact afterWatchdog_inTime (hnow.trans_le hle)
  have hcyc := stepCycle_of_script h.script hr (by rw [h.now]; exact hf)
  have hx : (opened u).rx = b :: (rx ++ (nextCycle u).arrivals) := by rw [opened_rx, h.rx, List.cons_append]
  rw [step_byte hcyc h.idle hx (by rw [hw]; exact hc), hw]

/-- An operation that leaves the trace and the dispatcher has the block go on parsing. -/
theorem Parsing.next (h : Parsing tr st (k :: ks) n (b :: rx) u) {i : Instr} {v : State}
    (hstep : step u = exec i (consume (opened u))) (hv : exec i (consume (opened u)) = .next v)
    (htr : v.trace = u.trace) (hd : v.dstage = u.dstage) :
    step u = .next v ∧ Parsing tr v.stage ks (n + k.advance) (rx ++ k.arrivals) v := by
  have hnext := nextCycle_of_script h.script
  obtain ⟨henv, -⟩ := operationsRespectOwnership _ _ _ hv
  refine ⟨hstep.trans hv, stepKeepsInvariants _ _ h.inv (hstep.trans hv), hd.trans h.idle, rfl, ?_, ?_, ?_,
    htr.trans h.trace⟩
  · simpa [h.script] using henv.script
  · simpa [hnext, h.now] using henv.now
  · simpa [hnext, h.rx] using henv.rx

/-- The magic byte (R112). -/
theorem Parsing.magicByte (h : Parsing tr .awaitingMagic (k :: ks) n (0xAA :: rx) u) (hr : k.rstN = true)
    (hf : timeFits (n + k.advance) = true) :
    ∃ v, step u = .next v ∧ Parsing tr .awaitingType ks (n + k.advance) (rx ++ k.arrivals) v ∧
      v.deadline = n + k.advance + Config.timeoutTicks := by
  have hstep := h.step_eq hr hf (.inl rfl) (byteCtx_of_le h.inv.plenLe)
  rw [h.stage, decodeByte_awaitingMagic, if_pos rfl] at hstep
  obtain ⟨hv, hp⟩ := h.next hstep (exec_syncHit _) rfl rfl
  exact ⟨_, hv, hp, by simp [nextCycle_of_script h.script, h.now]⟩

/-- The type byte (R114). -/
theorem Parsing.typeByte (h : Parsing tr .awaitingType (k :: ks) n (b :: rx) u) (hr : k.rstN = true)
    (hf : timeFits (n + k.advance) = true) (hwin : n + k.advance ≤ u.deadline) :
    ∃ v, step u = .next v ∧ Parsing tr .awaitingLength ks (n + k.advance) (rx ++ k.arrivals) v ∧
      v.deadline = n + k.advance + Config.timeoutTicks ∧ v.ptype = b := by
  have hstep := h.step_eq hr hf (.inr hwin) (byteCtx_of_le h.inv.plenLe)
  rw [h.stage, show ∀ m e, decodeByte ⟨.awaitingType, m, e⟩ b = .typeByte b from fun _ _ => rfl] at hstep
  obtain ⟨hv, hp⟩ := h.next hstep (exec_typeByte b _) rfl rfl
  exact ⟨_, hv, hp, by simp [nextCycle_of_script h.script, h.now], rfl⟩

end

/-- The stage in which the parser waits for the rest `q` of a payload. -/
def bodyStage (q : List Byte) : Stage := if q = [] then .awaitingChecksum else .awaitingPayload

/-- The registers of a frame of type `t` and payload `p` of which `done` has been taken. -/
structure Taken (t : Byte) (p done : List Byte) (u : State) : Prop where
  ptype : u.ptype = t
  plen  : u.plen = lengthByte p
  fill  : u.fill.toNat = done.length
  held  : u.buf.readList done.length = done

section

variable {tr : List (Nat × Action)} {k : Cycle} {ks : List Cycle} {n : Nat} {b : Byte} {p rx : List Byte} {u : State}

/-- The length byte (R115, R116): to the payload, or past an empty one (D10). -/
theorem Parsing.lengthByte (h : Parsing tr .awaitingLength (k :: ks) n (Sys2Proof.lengthByte p :: rx) u)
    (hp64 : p.length ≤ 64) (hr : k.rstN = true) (hf : timeFits (n + k.advance) = true)
    (hwin : n + k.advance ≤ u.deadline) :
    ∃ v, step u = .next v ∧ Parsing tr (bodyStage p) ks (n + k.advance) (rx ++ k.arrivals) v ∧
      v.deadline = n + k.advance + Config.timeoutTicks ∧ Taken u.ptype p [] v := by
  have hstep := h.step_eq hr hf (.inr hwin) (byteCtx_of_le h.inv.plenLe)
  have hlen := lengthByte_toNat hp64
  rw [h.stage, decodeByte_awaitingLength, hlen] at hstep
  cases p with
  | nil =>
    obtain ⟨hv, hp⟩ := h.next hstep (exec_lenZero _) rfl rfl
    exact ⟨_, hv, hp, by simp [nextCycle_of_script h.script, h.now], rfl, rfl, rfl, rfl⟩
  | cons b p =>
    rw [if_neg (by simp), if_neg (by omega)] at hstep
    obtain ⟨hv, hp⟩ := h.next hstep (exec_lenOk _ _) rfl rfl
    exact ⟨_, hv, hp, by simp [nextCycle_of_script h.script, h.now], rfl, rfl, rfl, rfl⟩

/-- A payload byte (R118, R119): stored behind the bytes already taken. -/
theorem Parsing.payloadByte {t : Byte} {done q : List Byte}
    (h : Parsing tr .awaitingPayload (k :: ks) n (b :: rx) u) (ht : Taken t p done u) (hp : p = done ++ b :: q)
    (hp64 : p.length ≤ 64) (hr : k.rstN = true) (hf : timeFits (n + k.advance) = true) (hwin : n + k.advance ≤ u.deadline) :
    ∃ v, step u = .next v ∧ Parsing tr (bodyStage q) ks (n + k.advance) (rx ++ k.arrivals) v ∧
      v.deadline = u.deadline ∧ Taken t p (done ++ [b]) v := by
  have hfill : u.fill.toNat < 64 := (h.inv.inPayload h.stage).trans_le h.inv.plenLe
  have hlen : u.plen.toNat = done.length + (q.length + 1) := by
    rw [ht.plen, lengthByte_toNat hp64, hp, List.length_append, List.length_cons]
  have hheld : (u.buf.write u.fill.toNat b).readList (done ++ [b]).length = done ++ [b] := by
    rw [List.length_append, List.length_singleton, ht.fill, readList_write h.inv.bufWf, ht.held]
  have htaken : (u.fill + 1).toNat = (done ++ [b]).length := by
    rw [fill_succ hfill, ht.fill, List.length_append, List.length_singleton]
  have hstep := h.step_eq hr hf (.inr hwin) (byteCtx_of_le h.inv.plenLe)
  rw [h.stage, decodeByte_awaitingPayload, ht.fill, hlen] at hstep
  cases q with
  | nil =>
    rw [if_neg (by simp)] at hstep
    obtain ⟨hv, hpar⟩ := h.next hstep (exec_payLast b (s := consume (opened u)) hfill) rfl rfl
    exact ⟨_, hv, hpar, rfl, ht.ptype, ht.plen, htaken, hheld⟩
  | cons b' q =>
    rw [if_pos (by simp)] at hstep
    obtain ⟨hv, hpar⟩ := h.next hstep (exec_pay b (s := consume (opened u)) hfill) rfl rfl
    refine ⟨_, hv, ?_, rfl, ht.ptype, ht.plen, htaken, hheld⟩
    exact { hpar with stage := h.stage }

/-- Of the actions of a dispatch only the first is a delivery. -/
theorem deliveries_dispatch (now : Nat) (t : Byte) (l : Nat) (p : List Byte) {z : Bool} {a : Action}
    (ha : isDeliver a = false) :
    deliveries (([Action.deliver t l p] ++ wakeActions z ++ [a]).map (fun a => (now, a))) = [(t, p)] := by
  cases a with
  | deliver => cases ha
  | _ => cases z <;> rfl

/-- The checksum byte (R120, R121): it delivers the frame exactly if it matches. -/
theorem Parsing.checksumByte {t : Byte} (h : Parsing tr .awaitingChecksum (k :: ks) n (b :: rx) u) (ht : Taken t p p u)
    (hp64 : p.length ≤ 64) (hr : k.rstN = true) (hf : timeFits (n + k.advance) = true)
    (hwin : n + k.advance ≤ u.deadline) :
    ∃ v, step u = .next v ∧ v.stage = .awaitingMagic ∧ v.rx = rx ++ k.arrivals ∧
      deliveries v.trace =
        deliveries tr ++ (if b = checksum t (Sys2Proof.lengthByte p) p then [(t, p)] else []) := by
  have hlen : u.plen.toNat = p.length := by rw [ht.plen, lengthByte_toNat hp64]
  have hheld : u.buf.readList u.plen.toNat = p := by rw [hlen, ht.held]
  have hstep := h.step_eq hr hf (.inr hwin) (byteCtx_awaitingChecksum h.stage h.inv.plenLe)
  have hrx : (consume (opened u)).rx = rx ++ k.arrivals := by simp [nextCycle_of_script h.script, h.rx]
  rw [decodeByte_awaitingChecksum, hheld, ht.ptype, ht.plen] at hstep
  split at hstep
  next hb =>
    obtain ⟨v, hv, hcmd⟩ := commandEffect_csumOk b (s := consume (opened u)) h.inv.plenLe
    obtain ⟨a, hf⟩ := hcmd.deliveryFrame
    refine ⟨v, hstep.trans hv, hf.empty.stage, hf.environment.rx.trans hrx, ?_⟩
    have htr : v.trace = u.trace ++ _ := hf.emitted
    rw [if_pos hb, htr, h.trace, deliveries_append, deliveries_dispatch _ _ _ _ hf.noDeliver]
    simp [hheld, ht.ptype]
  next hb =>
    refine ⟨_, hstep.trans (exec_csumBad b _), rfl, hrx, ?_⟩
    rw [if_neg hb, parserDrop_trace, deliveries_append]
    simp [h.trace, deliveries]

/-- The payload and the checksum byte; by induction on the payload bytes still to come. -/
theorem Parsing.body {t c : Byte} {done q : List Byte} {cs more : List Cycle}
    (h : Parsing tr (bodyStage q) (cs ++ more) n (q ++ c :: rx) u) (ht : Taken t p done u) (hp : p = done ++ q)
    (hp64 : p.length ≤ 64) (hlen : cs.length = q.length + 1) (hr : ∀ k ∈ cs, k.rstN = true)
    (hwin : n + (cs.map Cycle.advance).sum ≤ u.deadline) (hf : timeFits (n + (cs.map Cycle.advance).sum) = true) :
    ∃ v, Host.Core.run core (q.length + 1) u = .next v ∧ v.stage = .awaitingMagic ∧
      v.rx = rx ++ cs.flatMap Cycle.arrivals ∧
      deliveries v.trace =
        deliveries tr ++ (if c = checksum t (Sys2Proof.lengthByte p) p then [(t, p)] else []) := by
  induction q generalizing done cs n rx u with
  | nil =>
    obtain ⟨k, rfl⟩ := List.length_eq_one_iff.1 hlen
    rw [List.append_nil] at hp
    subst hp
    obtain ⟨v, hv, hst, hrx, hdel⟩ :=
      Parsing.checksumByte h ht hp64 (hr k (by simp)) (by simpa using hf) (by simpa using hwin)
    exact ⟨v, run_succ hv rfl, hst, by simpa using hrx, hdel⟩
  | cons b q ih =>
    obtain ⟨k, cs, rfl⟩ := List.exists_cons_of_length_eq_add_one hlen
    rw [List.map_cons, List.sum_cons, ← Nat.add_assoc] at hf hwin
    rw [List.cons_append, List.cons_append] at h
    obtain ⟨v, hv, hpar, hdl, htaken⟩ := Parsing.payloadByte h ht hp hp64 (hr k (by simp))
      (timeFits_mono (by omega) hf) (by omega)
    rw [List.append_assoc, List.cons_append] at hpar
    obtain ⟨w, hrun, hst, hrx, hdel⟩ := ih hpar htaken (by rw [hp, List.append_assoc]; rfl) (by simpa using hlen)
      (fun j hj => hr j (List.mem_cons_of_mem k hj)) (by rw [hdl]; exact hwin) hf
    exact ⟨w, run_succ hv hrun, hst, by rw [hrx, List.append_assoc, List.flatMap_cons], hdel⟩

end

/-- Settles O37: three header bytes, each in a window of its own, then the body in the third. -/
theorem frameWithinWindowsDeliveredIffValid : Obligations.FrameWithinWindowsDeliveredIffValid := by
  intro s t c p rest c0 c1 c2 cs more hs hst hd hp64 hrx hscript hlen hr h1 h2 hcs hf
  have hparse : Parsing s.trace .awaitingMagic (c0 :: c1 :: c2 :: (cs ++ more)) s.now
      (0xAA :: t :: lengthByte p :: (p ++ c :: rest)) s :=
    ⟨hs, hd, hst, by simpa using hscript, rfl, by simpa using hrx, rfl⟩
  obtain ⟨u1, hu1, hp1, hd1⟩ := hparse.magicByte (hr c0 (by simp)) (timeFits_mono (by omega) hf)
  simp only [List.append_assoc, List.cons_append] at hp1
  obtain ⟨u2, hu2, hp2, hd2, ht2⟩ := Parsing.typeByte hp1 (hr c1 (by simp)) (timeFits_mono (by omega) hf) (by omega)
  simp only [List.append_assoc, List.cons_append] at hp2
  obtain ⟨u3, hu3, hp3, hd3, ht3⟩ := Parsing.lengthByte hp2 hp64 (hr c2 (by simp)) (timeFits_mono (by omega) hf) (by omega)
  rw [ht2] at ht3
  simp only [List.append_assoc, List.cons_append] at hp3
  obtain ⟨v, hv, hvst, hvrx, hvdel⟩ := Parsing.body hp3 ht3 rfl hp64 hlen (fun k hk => hr k (by simp [hk])) (by omega) hf
  exact ⟨v, run_succ hu1 (run_succ hu2 (run_succ hu3 hv)), hvst, by simpa using hvrx, hvdel⟩

end Sys2Proof.Proofs
end
